-- ==== Sys2Proof/Word.lean ====
section
/-! DEFINITION. The plain widths of the N3: bytes, addresses, indices. -/

namespace Sys2Proof

/-- One byte of port data or of the line. -/
abbrev Byte := BitVec 8
/-- A node address or a turn number, 0..31 (00_scope.md, Terms). -/
abbrev NodeAddr := BitVec 5
/-- A 12-bit group id, 0..4095 (00_scope.md, Terms). -/
abbrev GroupId := BitVec 12
/-- A client port, 0..2. -/
abbrev Port := Fin 3
/-- The index of a mailbox within its port, 0..3 (R52). -/
abbrev MailboxIndex := Fin 4
/-- A channel of a node, 0..15 (R107). -/
abbrev ChannelNo := Fin 16
/-- An acceptance entry, 0..23 (R121). -/
abbrev EntryNo := Fin 24
/-- A slot of the frame store, 0..31 (R135). -/
abbrev SlotNo := Fin 32

end Sys2Proof
end

