-- ==== Sys2Proof/Syntax.lean ====
section
/-! DEFINITION. The commands: one constructor for each row of spec/opcode_table.json. -/

namespace Sys2Proof

/-- One character as the line unit samples it: its 8 data bits, and whether its stop bit was sampled
low (R1). -/
structure RxChar where
  value : Byte
  framingError : Bool
  deriving DecidableEq, Repr

/-- The eight read commands (R157). -/
inductive ReadCommand where
  | line | mailbox | completion | channel | entry | peek | take | queue
  deriving DecidableEq, Repr

/-- The commands of a client: what a command code in byte 0 of a transaction can name (R156). -/
inductive Command where
  | vote | configure | resume | load | request | abort | clear | claim | releaseChannel | halt | openChannel
  | setEntry | freeEntry | setQueue | release | setPort | acknowledge | resetPort | nop
  | read (cmd : ReadCommand)
  deriving DecidableEq, Repr

/-- One constructor for each row of the table.

Operands (DESIGN CHOICE, log 3). `p` is the port. In a row taken at chip-select release, `bytes` are the
MOSI bytes that completed after byte 0 (the argument byte first), and `dataBytes`, of a read command, is
the number of read-data bytes (MISO bytes from 2 on) that completed. Characters of the line come with
the row at whose event the last of them completes. -/
inductive Instr where
  /-- DEVICE_RESET (R167): power-on or the assertion of RESET. -/
  | deviceReset
  /-- PORT_RESET (R164): a falling edge of PRSTn. -/
  | portReset (p : Port)
  /-- TRANSACTION_BEGIN (R155): CSn goes low. -/
  | transactionBegin (p : Port)
  /-- READ_SNAPSHOT (R157): the argument byte of a read command completes. -/
  | readSnapshot (p : Port) (cmd : ReadCommand) (arg : Byte)
  /-- TRANSACTION_WITHOUT_COMMAND (R155): CSn goes high before byte 0 completes. -/
  | transactionWithoutCommand (p : Port)
  /-- BAD_COMMAND (R156): a release whose byte 0, `code`, names no command. -/
  | badCommand (p : Port) (code : Byte) (bytes : List Byte)
  /-- VOTE (R23). -/
  | vote (p : Port) (bytes : List Byte)
  /-- CONFIGURE (R33). -/
  | configure (p : Port) (bytes : List Byte)
  /-- READ_LINE (R36). -/
  | readLine (p : Port) (dataBytes : Nat)
  /-- RESUME (R48). -/
  | resume (p : Port) (bytes : List Byte)
  /-- LOAD (R55). -/
  | load (p : Port) (bytes : List Byte)
  /-- REQUEST (R56). -/
  | request (p : Port) (bytes : List Byte)
  /-- ABORT (R63). -/
  | abort (p : Port) (bytes : List Byte)
  /-- CLEAR (R69). -/
  | clear (p : Port) (bytes : List Byte)
  /-- READ_MAILBOX (R70). -/
  | readMailbox (p : Port) (dataBytes : Nat)
  /-- READ_COMPLETION (R67). -/
  | readCompletion (p : Port) (dataBytes : Nat)
  /-- CLAIM (R109). -/
  | claim (p : Port) (bytes : List Byte)
  /-- RELEASE_CHANNEL (R111). -/
  | releaseChannel (p : Port) (bytes : List Byte)
  /-- HALT (R112). -/
  | halt (p : Port) (bytes : List Byte)
  /-- OPEN (R112). -/
  | openChannel (p : Port) (bytes : List Byte)
  /-- READ_CHANNEL (R113). -/
  | readChannel (p : Port) (dataBytes : Nat)
  /-- SET_ENTRY (R123). -/
  | setEntry (p : Port) (bytes : List Byte)
  /-- FREE_ENTRY (R125). -/
  | freeEntry (p : Port) (bytes : List Byte)
  /-- READ_ENTRY (R126). -/
  | readEntry (p : Port) (dataBytes : Nat)
  /-- SET_QUEUE (R148). -/
  | setQueue (p : Port) (bytes : List Byte)
  /-- PEEK (R149). -/
  | peek (p : Port) (dataBytes : Nat)
  /-- TAKE (R150). -/
  | take (p : Port) (dataBytes : Nat)
  /-- RELEASE (R151). -/
  | release (p : Port) (bytes : List Byte)
  /-- READ_QUEUE (R152). -/
  | readQueue (p : Port) (dataBytes : Nat)
  /-- SET_PORT (R162). -/
  | setPort (p : Port) (bytes : List Byte)
  /-- ACKNOWLEDGE (R163). -/
  | acknowledge (p : Port) (bytes : List Byte)
  /-- RESET_PORT (R165). -/
  | resetPort (p : Port) (bytes : List Byte)
  /-- NOP (R158). -/
  | nop (p : Port) (bytes : List Byte)
  /-- TURN_BEGINS (R6): the end of an interframe space or of a pass gap, or quiet. -/
  | turnBegins
  /-- ACTIVITY_BEGINS (R1): a start bit on the idle line. -/
  | activityBegins
  /-- TURN_CHECK (R9): header byte 0 of a received activity completes; `chars` are the characters that
  completed since the activity began, or since the collision that began it. -/
  | turnCheck (chars : List RxChar)
  /-- RECEPTION_END (R18): at the last check byte or at quiet; `rest` are the characters that completed
  since the last row of this activity. -/
  | receptionEnd (rest : List RxChar)
  /-- COLLISION (R14): character number `index` of the own frame (the preamble is number 0) is read back
  as `readback`, which differs from it. -/
  | collision (index : Nat) (readback : RxChar)
  /-- CHECK_WORD_READ_BACK (R15): the last check byte of the own frame is read back clean. -/
  | checkWordReadBack
  /-- TRANSMISSION_END (R15): the end of the reply window of the own ADDRESSED frame, or the stop bit of
  the reply character `reply` that began in it. -/
  | transmissionEnd (reply : Option RxChar)
  /-- REPLY_BYTE_START (R16). -/
  | replyByteStart
  /-- REPLY_BYTE_END (R16): the stop bit of the N3's reply byte, or a readback mismatch in it. -/
  | replyByteEnd
  /-- LINE_TIME_END (R4). -/
  | lineTimeEnd
  /-- SYNC_IDLE_COUNT (R12). -/
  | syncIdleCount
  /-- SYNC_ENTRY_IDLE_SEEN (R26). -/
  | syncEntryIdleSeen
  /-- PRST_RELEASE (R164): PRSTn goes high. -/
  | prstRelease (p : Port)
  /-- DEVICE_RESET_ENDS (R167). -/
  | deviceResetEnds
  deriving DecidableEq, Repr

end Sys2Proof
end

