-- ==== Sys2Proof/Decode.lean ====
section
/-! DEFINITION. The command codes, the row that the bytes of a transaction give, and which command a word spells. -/

namespace Sys2Proof

/-- The command code of a read command (R35, R70, R67, R113, R126, R149, R150, R152). -/
def ReadCommand.code : ReadCommand → Byte
  | .line => 0x03
  | .mailbox => 0x14
  | .completion => 0x15
  | .channel => 0x24
  | .entry => 0x32
  | .peek => 0x41
  | .take => 0x42
  | .queue => 0x44

/-- The command code of a command (R23, R33, R48, R55, R56, R63, R69, R109, R111, R112, R123, R125, R148, R151,
R162, R163, R165, R158). -/
def Command.code : Command → Byte
  | .vote => 0x01
  | .configure => 0x02
  | .resume => 0x04
  | .load => 0x10
  | .request => 0x11
  | .abort => 0x12
  | .clear => 0x13
  | .claim => 0x20
  | .releaseChannel => 0x21
  | .halt => 0x22
  | .openChannel => 0x23
  | .setEntry => 0x30
  | .freeEntry => 0x31
  | .setQueue => 0x40
  | .release => 0x43
  | .setPort => 0x50
  | .acknowledge => 0x51
  | .resetPort => 0x52
  | .nop => 0x53
  | .read cmd => cmd.code

/-- The commands of the N3, by ascending code. -/
def Command.all : List Command :=
  [.vote, .configure, .read .line, .resume]
    ++ [.load, .request, .abort, .clear, .read .mailbox, .read .completion]
    ++ [.claim, .releaseChannel, .halt, .openChannel, .read .channel]
    ++ [.setEntry, .freeEntry, .read .entry]
    ++ [.setQueue, .read .peek, .read .take, .release, .read .queue]
    ++ [.setPort, .acknowledge, .resetPort, .nop]

/-- R156: the command that a command code names; none for a code that names no command of the N3. -/
def commandOf (code : Byte) : Option Command := Command.all.find? (fun c => c.code == code)

/-- R156: whether byte 0 of a transaction names a command of the N3. -/
def namesCommand (code : Byte) : Bool := (commandOf code).isSome

/-- The row at which a read command is taken at release (R157), with its count of read-data bytes. -/
def ReadCommand.row (cmd : ReadCommand) (p : Port) (dataBytes : Nat) : Instr :=
  match cmd with
  | .line => .readLine p dataBytes
  | .mailbox => .readMailbox p dataBytes
  | .completion => .readCompletion p dataBytes
  | .channel => .readChannel p dataBytes
  | .entry => .readEntry p dataBytes
  | .peek => .peek p dataBytes
  | .take => .take p dataBytes
  | .queue => .readQueue p dataBytes

/-- The row at which a command is taken at release, with the MOSI bytes complete after byte 0. A read command has as
many read-data bytes as bytes after its argument (R155). -/
def Command.row (c : Command) (p : Port) (bytes : List Byte) : Instr :=
  match c with
  | .vote => .vote p bytes
  | .configure => .configure p bytes
  | .resume => .resume p bytes
  | .load => .load p bytes
  | .request => .request p bytes
  | .abort => .abort p bytes
  | .clear => .clear p bytes
  | .claim => .claim p bytes
  | .releaseChannel => .releaseChannel p bytes
  | .halt => .halt p bytes
  | .openChannel => .openChannel p bytes
  | .setEntry => .setEntry p bytes
  | .freeEntry => .freeEntry p bytes
  | .setQueue => .setQueue p bytes
  | .release => .release p bytes
  | .setPort => .setPort p bytes
  | .acknowledge => .acknowledge p bytes
  | .resetPort => .resetPort p bytes
  | .nop => .nop p bytes
  | .read cmd => cmd.row p (bytes.length - 1)

/-- R155, R156: the row of the chip-select release of a transaction whose complete MOSI bytes are `mosi`: byte 0 is
the command code, and is read first. -/
def releaseRow (p : Port) (mosi : List Byte) : Instr :=
  match mosi with
  | [] => .transactionWithoutCommand p
  | code :: bytes =>
    match commandOf code with
    | some c => c.row p bytes
    | none => .badCommand p code bytes

/-- The command that a word spells by the table's bits. spec/opcode_table.json gives no row any bits
(every row's "fields" is empty, and 98_reader.md counts no row with fixed bits), so no word spells one
(log 28). The bytes that a client sends are read by `releaseRow`. -/
def decodeTableWord (_nbits _w : Nat) : Option Instr := none

end Sys2Proof
end

