-- ==== Sys2Proof/Config.lean ====
section
/-! DEFINITION. The free values: orders that the spec leaves open inside one row of the table.
They have no body, so nothing can be proved of their value; each is applied to the counter `State.draws`. -/

namespace Sys2Proof

/-- R83: at turn 0 of a node with address 0, whether the round boundary is taken before own turn
begins. The rule gives the outcome of either order and fixes none. DESIGN CHOICE (log 7): a free value. -/
opaque Config.boundaryFirst : Nat → Bool

/-- R133: at a SENT_CLEAN transmission end, whether the local pass that follows the mailbox leaving the
pending list is taken before the echo. The rule fixes neither. DESIGN CHOICE (log 8): a free value. -/
opaque Config.passBeforeEcho : Nat → Bool

end Sys2Proof
end

