-- ==== Sys2Proof/Machine/State.lean ====
section
/-! DEFINITION. The state of the N3, block by block, as plain data; the reasons a step can stop; reset. -/

namespace Sys2Proof.Machine

/-! ## Line unit (01_the_turn_line.md) -/

/-- Line activity state (R19). -/
inductive Activity where
  | idle | receiving | transmitting | awaitingReply
  deriving DecidableEq, Repr

/-- Reply codes (R4, R169). -/
inductive ReplyCode where
  | accept | defer | refuse
  deriving DecidableEq, Repr

/-- The raw result of an own transmission (R4, R14, R15, R39). -/
inductive RawResult where
  | sentClean | accept | defer | refuse | noReply | badReply | collision
  deriving DecidableEq, Repr

/-- Classification of a reception (R5, R18). -/
inductive RxClass where
  | good | checkError | formatError
  deriving DecidableEq, Repr

/-- The part of a frame that depends on its kind (R2). -/
inductive FrameBody where
  /-- ADDRESSED: destination, channel, sequence bit, fresh flag. -/
  | addressed (dest : NodeAddr) (channel : ChannelNo) (seqBit : Bool) (fresh : Bool)
  /-- GROUP: the group id. -/
  | group (gid : GroupId)
  deriving DecidableEq, Repr

/-- A reference to a mailbox: port and index (05, "Reference"). -/
structure Ref where
  port : Port
  index : MailboxIndex
  deriving DecidableEq, Repr

/-- The own frame as the line unit built it (R13, R15): where it came from, its header and payload. -/
structure OwnFrame where
  ref : Ref
  sender : NodeAddr
  body : FrameBody
  payload : List Byte
  deriving DecidableEq, Repr

/-- What has become of the activity that is being received (R5, R9, R10, R17, R18). -/
inductive RxPhase where
  /-- header byte 0 has not completed -/
  | opening
  /-- R5, check 1 -/
  | disturbance
  /-- frame start has been raised and reception end has not -/
  | frame
  /-- R10: it bears the own address and is followed to its end -/
  | foreign
  /-- reception end has been raised; its line time has not ended -/
  | ended
  /-- R18: abandoned, its line time has not ended -/
  | abandoned
  deriving DecidableEq, Repr

/-- The activity being received: what was gathered, and whether the line state was ACTIVE at its frame
start (before frame start: when it began). -/
structure Reception where
  phase : RxPhase
  chars : List RxChar
  activeAtStart : Bool
  deriving DecidableEq, Repr

/-- State of the line unit (R19, R20, R21). The own-frame-in-flight flag is `own.isSome`: the flag is set
exactly while the line unit holds the frame being sent (R19). -/
structure LineUnit where
  turn : NodeAddr
  /-- no turn is in progress: the interframe space (R6) -/
  betweenTurns : Bool
  round : BitVec 8
  activity : Activity
  own : Option OwnFrame
  holdFlag : Bool
  syncIdle : Nat
  /-- R26: no level change is taken as a start bit yet -/
  busyUntilIdle : Bool
  /-- R12, R27: the sync idle count has established sync, and a withdrawal is taken before the first turn
  (log 27) -/
  firstTurnDue : Bool
  reception : Option Reception
  /-- the reply code that the reply decision has handed over and that is not yet being sent (R16) -/
  reply : Option ReplyCode
  checkErrors : BitVec 16
  turnSlips : BitVec 16
  den : Bool
  /-- the characters that TXD carries; empty for the idle level (log 24) -/
  txd : List Byte
  deriving DecidableEq, Repr

/-! ## Membership unit (02) -/

/-- A vote (R22). -/
inductive Vote where
  | none | listen | full
  deriving DecidableEq, Repr

/-- Line state (R25). -/
inductive LineState where
  | offline | syncing | active | leaving
  deriving DecidableEq, Repr

/-- Mode (R24). -/
inductive Mode where
  | listen | full
  deriving DecidableEq, Repr

/-- Share policy (R32). -/
inductive SharePolicy where
  | key | rotate
  deriving DecidableEq, Repr

/-- Recovery policy (R32). -/
inductive RecoveryPolicy where
  | auto | manual
  deriving DecidableEq, Repr

/-- The line configuration record (R32). -/
structure LineConfig where
  nodeAddress : NodeAddr
  bitRate : Fin 5
  share : SharePolicy
  recovery : RecoveryPolicy
  deriving DecidableEq, Repr

/-- State of the membership unit. The mode is a function of the votes (R24): `State.mode`. -/
structure Membership where
  votes : Vector Vote 3
  lineState : LineState
  config : LineConfig
  deriving DecidableEq, Repr

/-! ## Fault confinement unit (03) -/

/-- A health outcome (R38). -/
inductive Health where
  | ok | fail
  deriving DecidableEq, Repr

/-- Confinement state (R41). -/
inductive ConfinementState where
  | engaged | guarded | silenced | readyToResume
  deriving DecidableEq, Repr

/-- State of the fault confinement unit; the window is oldest first (R38). -/
structure Confinement where
  window : List Health
  state : ConfinementState
  cleanRounds : Nat
  spoiled : Bool
  deriving DecidableEq, Repr

/-! ## Mailbox bank (04) -/

/-- Kind of a mailbox record (R52). -/
inductive MailKind where
  | remote | localHandOff | group
  deriving DecidableEq, Repr

/-- A mailbox record (R52); a field that the kind does not use is held as 0, an absent hold-off as 0. -/
structure MailRecord where
  kind : MailKind
  dest : NodeAddr
  channel : ChannelNo
  group : GroupId
  key : BitVec 8
  retryLimit : BitVec 4
  holdOffRounds : BitVec 8
  payload : List Byte
  deriving DecidableEq, Repr

/-- State of a mailbox (R54). -/
inductive MailState where
  | vacant | loaded | queued | sending | held | waitingSpace | done | retiring
  deriving DecidableEq, Repr

/-- Outcome of a completion (R53). -/
inductive MailOutcome where
  | accepted | sent | refused | expired | aborted | withdrawn
  deriving DecidableEq, Repr

/-- Expiry cause (R53). -/
inductive ExpiryCause where
  | deferred | noReply | badReply | collision
  deriving DecidableEq, Repr

/-- A mailbox: its record and its progress fields (R52, R53). -/
structure Mailbox where
  record : Option MailRecord
  state : MailState
  outcome : Option MailOutcome
  cause : Option ExpiryCause
  attempts : Nat
  lateAbort : Bool
  abortPending : Bool
  holdOff : BitVec 8
  deriving DecidableEq, Repr

/-- A VACANT mailbox with every progress field at its device-reset value (R53). -/
def Mailbox.vacant : Mailbox :=
  { record := none, state := .vacant, outcome := none, cause := none, attempts := 0,
    lateAbort := false, abortPending := false, holdOff := 0 }

/-- The mailbox bank: four mailboxes and one completion list, oldest first, for each port (R52, R66). -/
structure MailboxBank where
  boxes : Vector (Vector Mailbox 4) 3
  completions : Vector (List MailboxIndex) 3
  deriving DecidableEq, Repr

/-! ## Turn scheduler (05) -/

/-- Transmit order of a port under ROTATE (R81). -/
inductive TransmitOrder where
  | key | arrival
  deriving DecidableEq, Repr

/-- State of the turn scheduler: the pending list, earliest first (R75), the rotation pointer (R80) and
the transmit orders (R81). -/
structure Scheduler where
  refs : List Ref
  rotation : Port
  orders : Vector TransmitOrder 3
  deriving DecidableEq, Repr

/-! ## Sequence unit (06) -/

/-- An outbound entry, keyed by destination node and channel (R92). -/
structure OutEntry where
  node : NodeAddr
  channel : ChannelNo
  nextBit : Bool
  fresh : Bool
  deriving DecidableEq, Repr

/-- An inbound entry, keyed by source node and local channel (R92). -/
structure InEntry where
  node : NodeAddr
  channel : ChannelNo
  expected : Bool
  deriving DecidableEq, Repr

/-- The sequence tables, each in recency order, most recently used first (R92). -/
structure SequenceUnit where
  outbound : List OutEntry
  inbound : List InEntry
  deriving DecidableEq, Repr

/-! ## Channel table (07) and acceptance table (08) -/

/-- State of a channel (R107). -/
inductive ChannelState where
  | closed | opened | halted
  deriving DecidableEq, Repr

/-- A channel record (R107). -/
structure Channel where
  owner : Option Port
  state : ChannelState
  deriving DecidableEq, Repr

/-- A CLOSED channel without owner (R107). -/
def Channel.free : Channel := { owner := none, state := .closed }

/-- Kind of an acceptance entry (R121). -/
inductive EntryKind where
  | exact | span | masked
  deriving DecidableEq, Repr

/-- An acceptance entry (R121). -/
structure Entry where
  owner : Option Port
  enabled : Bool
  kind : EntryKind
  first : GroupId
  second : GroupId
  deriving DecidableEq, Repr

/-- A free entry (R121). -/
def Entry.free : Entry := { owner := none, enabled := false, kind := .exact, first := 0, second := 0 }

/-! ## Frame store and receive queues (09) -/

/-- The 32 slots: holder counts, bytes, and the current reception slot (R135). The free pool is
`State.freeSlots`. -/
structure FrameStore where
  holders : Vector Nat 32
  bytes : Vector (Vector Byte 64) 32
  rxSlot : Option SlotNo
  deriving DecidableEq, Repr

/-- Origin of a queue record, with the fields that only this origin carries (R139). -/
inductive Origin where
  | lineAddressed (source : NodeAddr) (channel : ChannelNo)
  | lineGroup (source : NodeAddr) (gid : GroupId) (entry : EntryNo)
  | echo (source : Port) (gid : GroupId) (entry : EntryNo)
  | handOff (source : Port) (channel : ChannelNo)
  deriving DecidableEq, Repr

/-- A queue record (R139). Its payload stands in its slot. -/
structure QueueRecord where
  origin : Origin
  arrival : BitVec 8
  lossesBefore : Nat
  length : Nat
  slot : SlotNo
  deriving DecidableEq, Repr

/-- Overflow policy (R140). -/
inductive OverflowPolicy where
  | dropNew | displace
  deriving DecidableEq, Repr

/-- A receive queue, oldest record first (R139, R140). -/
structure Queue where
  capacity : Nat
  policy : OverflowPolicy
  records : List QueueRecord
  pendingLosses : Nat
  /-- persistent head pin -/
  pin : Bool
  /-- transaction head pin -/
  txnPin : Bool
  deriving DecidableEq, Repr

/-- A queue with the values of R140 for device reset and for port reset. -/
def Queue.initial : Queue :=
  { capacity := 4, policy := .dropNew, records := [], pendingLosses := 0, pin := false, txnPin := false }

/-! ## Port engines (10) -/

/-- Result codes (R168). -/
inductive Result where
  | ok | badCommand | badArgument | truncated | busy | notPending | ownedElsewhere | notOwner
  | offline | empty | notReady
  deriving DecidableEq, Repr

/-- Five bits, one for each attention flag (R160, R168). -/
structure Attention where
  rx : Bool
  txDone : Bool
  loss : Bool
  line : Bool
  error : Bool
  deriving DecidableEq, Repr

/-- No flag. -/
def Attention.none : Attention :=
  { rx := false, txDone := false, loss := false, line := false, error := false }

/-- What a read command's argument and the state at its snapshot give (R157). -/
inductive Verdict where
  | valid | badArgument | empty
  deriving DecidableEq, Repr

/-- What the side effect of a read command needs of its snapshot (R157). -/
inductive SideEffect where
  | none
  /-- READ_LINE with argument 1: the counter values reported (R20) -/
  | reduce (checkErrors turnSlips : BitVec 16)
  /-- READ_COMPLETION: the entry reported (R67) -/
  | dropCompletion (index : MailboxIndex)
  deriving DecidableEq, Repr

/-- The snapshot of a read command (R157): the MISO bytes from byte 2 on, up to the full response. -/
structure Snapshot where
  cmd : ReadCommand
  verdict : Verdict
  data : List Byte
  effect : SideEffect
  deriving DecidableEq, Repr

/-- The transaction in progress (R155): MISO bytes 0 and 1 as fixed when CSn went low, the MOSI bytes received so
far, and the snapshot. -/
structure Transaction where
  miso0 : Byte
  miso1 : Byte
  /-- MOSI bytes 0 on, as far as a row has brought them (log 26) -/
  received : List Byte
  snapshot : Option Snapshot
  deriving DecidableEq, Repr

/-- A port engine (R155 to R164), with the levels of its CSn and PRSTn. -/
structure Engine where
  lastResult : Result
  flags : Attention
  mask : Attention
  txn : Option Transaction
  csLow : Bool
  prstLow : Bool
  deriving DecidableEq, Repr

/-- A port engine with the values of R164; CSn and PRSTn high (log 5). -/
def Engine.initial : Engine :=
  { lastResult := .ok, flags := .none, mask := .none, txn := none, csLow := false, prstLow := false }

/-! ## The whole part -/

/-- The state of the N3. `pending` is the queue of commands that wait, first in first out; `draws` feeds
the free orders of Config (log 7, log 8). -/
structure State where
  line : LineUnit
  member : Membership
  fault : Confinement
  mail : MailboxBank
  sched : Scheduler
  seq : SequenceUnit
  channels : Vector Channel 16
  entries : Vector Entry 24
  store : FrameStore
  queues : Vector Queue 3
  engines : Vector Engine 3
  inReset : Bool
  draws : Nat
  pending : List Instr
  deriving DecidableEq, Repr

/-- The reasons for which a step may stop with a fault. No meaning raises one: the spec names no
condition that stops the part (log 22). -/
inductive Fault where
  /-- Raised by nobody; it stands for a stop that the part does not have. Safe. -/
  | stopped
  deriving DecidableEq, Repr

/-- The reasons for which a step may be refused. -/
inductive Refusal where
  /-- Raised by an arm of exec whose command has no meaning yet; no arm does. Safe. -/
  | notModelled (mnemonic : String)
  deriving DecidableEq, Repr

/-- Line unit after device reset (R21). -/
def LineUnit.initial : LineUnit :=
  { turn := 0, betweenTurns := false, round := 0, activity := .idle, own := none, holdFlag := false,
    syncIdle := 0, busyUntilIdle := false, firstTurnDue := false, reception := none, reply := none,
    checkErrors := 0, turnSlips := 0, den := false, txd := [] }

/-- Membership unit after device reset (R32, R37). -/
def Membership.initial : Membership :=
  { votes := .replicate 3 .none, lineState := .offline,
    config := { nodeAddress := 0, bitRate := 1, share := .key, recovery := .auto } }

/-- The machine right after device reset (R21, R37, R50, R74, R90, R105, R107, R121, R135, R140, R164),
with no command waiting. DESIGN CHOICE: pin levels (log 5), slot bytes (log 6), draws (log 7). -/
def State.reset : State :=
  { line := .initial
    member := .initial
    fault := { window := [], state := .engaged, cleanRounds := 0, spoiled := true }
    mail := { boxes := .replicate 3 (.replicate 4 .vacant), completions := .replicate 3 [] }
    sched := { refs := [], rotation := 0, orders := .replicate 3 .key }
    seq := { outbound := [], inbound := [] }
    channels := .replicate 16 .free
    entries := .replicate 24 .free
    store := { holders := .replicate 32 0, bytes := .replicate 32 (.replicate 64 0), rxSlot := none }
    queues := .replicate 3 .initial
    engines := .replicate 3 .initial
    inReset := false
    draws := 0
    pending := [] }

end Sys2Proof.Machine
end

