-- ==== Sys2Proof/Machine/Ops.lean ====
section
/-! DEFINITION. Named reads and writes of the state, the views the spec computes from it, and the
bookkeeping of the space events and removals that an event raises. -/

namespace Sys2Proof.Machine

/-! ## One home for each item -/

/-- The receive queue of a port. -/
def State.queue (s : State) (p : Port) : Queue := s.queues[p]
/-- Replaces the receive queue of a port. -/
def State.putQueue (s : State) (p : Port) (q : Queue) : State :=
  { s with queues := s.queues.set p q }

/-- The engine of a port. -/
def State.engine (s : State) (p : Port) : Engine := s.engines[p]
/-- Replaces the engine of a port. -/
def State.putEngine (s : State) (p : Port) (e : Engine) : State :=
  { s with engines := s.engines.set p e }

/-- The mailbox that a reference names. -/
def State.mailbox (s : State) (r : Ref) : Mailbox := s.mail.boxes[r.port][r.index]
/-- Replaces the mailbox that a reference names. -/
def State.putMailbox (s : State) (r : Ref) (m : Mailbox) : State :=
  { s with mail := { s.mail with boxes := s.mail.boxes.set r.port (s.mail.boxes[r.port].set r.index m) } }

/-- The completion list of a port, oldest first (R66). -/
def State.completions (s : State) (p : Port) : List MailboxIndex := s.mail.completions[p]
/-- Replaces the completion list of a port. -/
def State.putCompletions (s : State) (p : Port) (l : List MailboxIndex) : State :=
  { s with mail := { s.mail with completions := s.mail.completions.set p l } }

/-- The record of a channel (R107). -/
def State.channel (s : State) (c : ChannelNo) : Channel := s.channels[c]
/-- Replaces the record of a channel. -/
def State.putChannel (s : State) (c : ChannelNo) (v : Channel) : State :=
  { s with channels := s.channels.set c v }

/-- An acceptance entry (R121). -/
def State.entry (s : State) (i : EntryNo) : Entry := s.entries[i]
/-- Replaces an acceptance entry. -/
def State.putEntry (s : State) (i : EntryNo) (e : Entry) : State :=
  { s with entries := s.entries.set i e }

/-- The vote of a port (R22). -/
def State.vote (s : State) (p : Port) : Vote := s.member.votes[p]

/-- The transmit order of a port (R81). -/
def State.order (s : State) (p : Port) : TransmitOrder := s.sched.orders[p]
/-- Replaces the transmit order of a port. -/
def State.putOrder (s : State) (p : Port) (o : TransmitOrder) : State :=
  { s with sched := { s.sched with orders := s.sched.orders.set p o } }

/-- Replaces the pending list (R75). -/
def State.putRefs (s : State) (l : List Ref) : State :=
  { s with sched := { s.sched with refs := l } }

/-- Replaces the line unit. -/
def State.putLine (s : State) (l : LineUnit) : State := { s with line := l }

/-- Replaces the fault confinement unit. -/
def State.putFault (s : State) (f : Confinement) : State := { s with fault := f }

/-- Replaces the frame store. -/
def State.putStore (s : State) (f : FrameStore) : State := { s with store := f }

/-- Replaces the sequence tables. -/
def State.putSeq (s : State) (q : SequenceUnit) : State := { s with seq := q }

/-! ## Views -/

/-- The own-frame-in-flight flag (R13, R19). -/
def State.inFlight (s : State) : Bool := s.line.own.isSome

/-- The participation set is empty (R22). -/
def votesEmpty (v : Vector Vote 3) : Bool := v.all (· == .none)

/-- The mode that the votes give; none while the set is empty (R24). -/
def modeOf (v : Vector Vote 3) : Option Mode :=
  if v.any (· == .full) then some .full else if v.any (· == .listen) then some .listen else none

/-- The mode (R24). -/
def State.mode (s : State) : Option Mode := modeOf s.member.votes

/-- The line unit samples RXD for characters (R11). -/
def State.sampling (s : State) : Bool := s.member.lineState != .offline

/-- Turn tracking runs (R11). -/
def State.tracking (s : State) : Bool :=
  s.member.lineState == .active || s.member.lineState == .leaving

/-- A slot is in the free pool when no queue record refers to it and it is not the reception slot
(R135). -/
def State.slotFree (s : State) (i : SlotNo) : Bool :=
  s.store.holders[i] == 0 && s.store.rxSlot != some i

/-- The free pool, lowest number first (R135). -/
def State.freeSlots (s : State) : List SlotNo := (List.finRange 32).filter s.slotFree

/-- The slot that the store takes next: the lowest-numbered free one (R135). -/
def State.lowestFree (s : State) : Option SlotNo := s.freeSlots.head?

/-- The reception slot that the frame being received holds (R17, R18). -/
def State.heldSlot (s : State) : Option SlotNo :=
  if s.line.holdFlag then s.store.rxSlot else none

/-! ## What an event raises for the scheduler -/

/-- A state inside an event, with what the event has raised so far for the turn scheduler:
`removed`, a reference has left the pending list (R84); `space`, a space event (R88). -/
structure Upd where
  state : State
  removed : Bool
  space : Bool
  deriving DecidableEq, Repr

/-- A state for which nothing has been raised. -/
def Upd.start (s : State) : Upd := { state := s, removed := false, space := false }

/-- Acts on the state and raises nothing. -/
def Upd.on (u : Upd) (f : State → State) : Upd := { u with state := f u.state }

/-- Acts on the state and adds what the action raises. -/
def Upd.andThen (u : Upd) (f : State → Upd) : Upd :=
  let v := f u.state
  { state := v.state, removed := u.removed || v.removed, space := u.space || v.space }

/-- The three ports. -/
def allPorts : List Port := [0, 1, 2]

/-- The four mailbox indices. -/
def allIndices : List MailboxIndex := [0, 1, 2, 3]

/-- Acts for each element of a list in turn. -/
def Upd.each {α : Type} (u : Upd) (l : List α) (f : α → State → Upd) : Upd :=
  l.foldl (fun (u : Upd) a => u.andThen (f a)) u

end Sys2Proof.Machine
end

