-- ==== Sys2Proof/Machine/Flags.lean ====
section
/-! DEFINITION. Attention flags: their byte layout, ATNn, and the events that set and clear them. -/

namespace Sys2Proof.Machine

/-- The attention byte: ERROR 4, LINE 3, LOSS 2, TXDONE 1, RX 0, bits 7 to 5 zero (R168). -/
def Attention.toByte (a : Attention) : Byte :=
  (if a.error then 0x10 else 0) ||| (if a.line then 0x08 else 0) ||| (if a.loss then 0x04 else 0)
    ||| (if a.txDone then 0x02 else 0) ||| (if a.rx then 0x01 else 0)

/-- The flags that bits 4 to 0 of a byte name (R168). -/
def Attention.ofByte (b : Byte) : Attention :=
  { rx := b.getLsbD 0, txDone := b.getLsbD 1, loss := b.getLsbD 2, line := b.getLsbD 3,
    error := b.getLsbD 4 }

/-- Bits 7 to 5 of an attention byte are zero (R162, R163). -/
def attentionByteValid (b : Byte) : Bool := b.toNat < 32

/-- ATNn is asserted while at least one flag is both set and unmasked (R161). -/
def Engine.atn (e : Engine) : Bool :=
  (e.flags.rx && e.mask.rx) || (e.flags.txDone && e.mask.txDone) || (e.flags.loss && e.mask.loss)
    || (e.flags.line && e.mask.line) || (e.flags.error && e.mask.error)

/-- ATNn is driven low (R161). -/
def State.atn (s : State) (p : Port) : Bool := (s.engine p).atn

/-- Acts on the attention flags of one port. -/
def State.onFlags (s : State) (p : Port) (f : Attention → Attention) : State :=
  let e := s.engine p
  s.putEngine p { e with flags := f e.flags }

/-- RX follows whether the port's queue is non-empty (R145). -/
def State.followRx (s : State) (p : Port) : State :=
  s.onFlags p (fun a => { a with rx := !(s.queue p).records.isEmpty })

/-- TXDONE is set at a port (R68). -/
def State.raiseTxDone (s : State) (p : Port) : State := s.onFlags p (fun a => { a with txDone := true })

/-- LOSS is set at a port (R144). -/
def State.raiseLoss (s : State) (p : Port) : State := s.onFlags p (fun a => { a with loss := true })

/-- LINE is set at all three ports (R31, R51). -/
def State.raiseLine (s : State) : State :=
  allPorts.foldl (fun s p => s.onFlags p (fun a => { a with line := true })) s

/-- The result of a command becomes the port's last result, and a result other than OK sets ERROR, after
the command's own effects (R158, R160). -/
def State.report (s : State) (p : Port) (r : Result) : State :=
  let e := s.engine p
  s.putEngine p { e with lastResult := r, flags := { e.flags with error := e.flags.error || r != .ok } }

/-- ACKNOWLEDGE clears the edge flags that its argument names and leaves RX as it is (R163). -/
def Attention.acknowledge (a named : Attention) : Attention :=
  { rx := a.rx, txDone := a.txDone && !named.txDone, loss := a.loss && !named.loss,
    line := a.line && !named.line, error := a.error && !named.error }

end Sys2Proof.Machine
end

