-- ==== Sys2Proof/Machine/Store.lean ====
section
/-! DEFINITION. Frame store and receive queues: taking and writing slots, appends, losses, displacement,
removals, space events (09_frame_store_and_receive_queues.md). -/

namespace Sys2Proof.Machine

/-- A slot's bytes after `payload` is written into it from its first byte on (R135). -/
def writeBytes (old : Vector Byte 64) (payload : List Byte) : Vector Byte 64 :=
  Vector.ofFn (fun i => (payload[i.val]?).getD old[i])

/-- Writes a payload into a slot (R86, R132, R136). -/
def State.writeSlot (s : State) (i : SlotNo) (payload : List Byte) : State :=
  s.putStore { s.store with bytes := s.store.bytes.set i (writeBytes s.store.bytes[i] payload) }

/-- Changes the holder count of a slot. -/
def State.onHolders (s : State) (i : SlotNo) (f : Nat → Nat) : State :=
  s.putStore { s.store with holders := s.store.holders.set i (f s.store.holders[i]) }

/-- A record refers to the slot: its holder count rises by 1 (R141). -/
def State.hold (s : State) (i : SlotNo) : State := s.onHolders i (· + 1)

/-- A record that referred to the slot has left: its holder count falls by 1 (R147). -/
def State.unhold (s : State) (i : SlotNo) : State := s.onHolders i (· - 1)

/-- The queue holds as many records as its capacity (R140). -/
def Queue.full (q : Queue) : Bool := q.capacity ≤ q.records.length

/-- The head is pinned while either pin is on it (R146). -/
def Queue.headPinned (q : Queue) : Bool := q.pin || q.txnPin

/-- The tail is pinned when it is also the head and the head is pinned (R141). -/
def Queue.tailPinned (q : Queue) : Bool := q.records.length == 1 && q.headPinned

/-- What a block hands over for an append; losses before is taken from the queue (R141). -/
structure Delivery where
  origin : Origin
  arrival : BitVec 8
  length : Nat
  slot : SlotNo
  deriving DecidableEq, Repr

/-- The record of a delivery that carries the losses `n`. -/
def Delivery.record (d : Delivery) (n : Nat) : QueueRecord :=
  { origin := d.origin, arrival := d.arrival, lossesBefore := n, length := d.length, slot := d.slot }

/-- R141: an append that takes a record. It goes to the tail and carries the pending losses, which return
to 0; the holder count of its slot rises by 1; RX follows the queue. -/
def State.appendRecord (s : State) (p : Port) (d : Delivery) : State :=
  let q := s.queue p
  let s1 := s.putQueue p
    { q with records := q.records ++ [d.record q.pendingLosses], pendingLosses := 0 }
  (s1.hold d.slot).followRx p

/-- R143, R144: the pending losses rise by `n`, stopping at 255, and LOSS is set when they rise from 0. -/
def State.countLoss (s : State) (p : Port) (n : Nat) : State :=
  let q := s.queue p
  let s1 := s.putQueue p { q with pendingLosses := min 255 (q.pendingLosses + n) }
  if q.pendingLosses == 0 then s1.raiseLoss p else s1

/-- R142: the tail record is removed, its slot loses a holder, the pending losses rise by 1 plus its
losses before, and the new record is appended; LOSS is set (R144); a space event (R88). -/
def State.displace (s : State) (p : Port) (tail : QueueRecord) (d : Delivery) : Upd :=
  let q := s.queue p
  let s1 := (s.putQueue p { q with records := q.records.dropLast }).unhold tail.slot
  let s2 := (s1.countLoss p (1 + tail.lossesBefore)).raiseLoss p
  { state := s2.appendRecord p d, removed := false, space := true }

/-- R129, R141, R142: an append of group delivery or of local echo, which decides by the queue's capacity
and overflow policy. A full queue that has no tail to displace drops the frame (log 23). -/
def State.offer (s : State) (p : Port) (d : Delivery) : Upd :=
  let q := s.queue p
  if !q.full then .start (s.appendRecord p d)
  else
    match q.policy, q.tailPinned, q.records.getLast? with
    | .displace, false, some tail => s.displace p tail d
    | _, _, _ => .start (s.countLoss p 1)

/-- R147: the head leaves the queue. Its slot loses a holder, a persistent pin on it is cleared, RX
follows the queue; a space event (R88). An empty queue stays as it is. -/
def State.removeHead (s : State) (p : Port) : Upd :=
  let q := s.queue p
  match q.records with
  | [] => .start s
  | r :: rest =>
    { state := ((s.putQueue p { q with records := rest, pin := false }).unhold r.slot).followRx p,
      removed := false, space := true }

/-- R154: every record leaves the queue and its slot loses a holder; the queue takes its reset values and
RX follows it; space events (R88). LOSS is the port engine's (R164). -/
def State.emptyQueue (s : State) (p : Port) : Upd :=
  let records := (s.queue p).records
  { state := ((records.foldl (fun s r => s.unhold r.slot) s).putQueue p .initial).followRx p,
    removed := false, space := !records.isEmpty }

/-- The transaction pin of a port is held or released (R146). -/
def State.setTxnPin (s : State) (p : Port) (held : Bool) : State :=
  s.putQueue p { s.queue p with txnPin := held }

/-- R136: frame start in ACTIVE. The lowest-numbered free slot becomes the reception slot and the hold flag
is set; an empty pool leaves the flag clear. -/
def State.takeReceptionSlot (s : State) : State :=
  match s.lowestFree with
  | some i =>
    (s.putStore { s.store with rxSlot := some i }).putLine { s.line with holdFlag := true }
  | none => s.putLine { s.line with holdFlag := false }

/-- R137, R18: the slot stops being the reception slot and the hold flag is cleared. If no record refers to
the slot it returns to the free pool, which is a space event (R88). -/
def State.endReceptionSlot (s : State) : Upd :=
  let s1 := (s.putStore { s.store with rxSlot := none }).putLine { s.line with holdFlag := false }
  match s.store.rxSlot with
  | some i => { state := s1, removed := false, space := s1.slotFree i }
  | none => .start s1

end Sys2Proof.Machine
end

