-- ==== Sys2Proof/Machine/Acceptance.lean ====
section
/-! DEFINITION. Acceptance table: matching, group delivery, local echo
(08_group_acceptance_and_local_echo.md). -/

namespace Sys2Proof.Machine

/-- R122: the kind and parameters describe a set that holds the id. -/
def Entry.describes (e : Entry) (g : GroupId) : Bool :=
  match e.kind with
  | .exact => g == e.first
  | .span => e.first ≤ g && g ≤ e.second
  | .masked => g &&& e.second == e.first &&& e.second

/-- R122: an entry of port `p` admits the id. -/
def Entry.admitsFor (e : Entry) (p : Port) (g : GroupId) : Bool :=
  e.owner == some p && e.enabled && e.describes g

/-- R127: the first entry of a kind, by ascending index, that is owned by `p` and admits `g`. -/
def State.matchKind (s : State) (p : Port) (g : GroupId) (k : EntryKind) : Option EntryNo :=
  (List.finRange 24).find? (fun i => (s.entry i).kind == k && (s.entry i).admitsFor p g)

/-- R127: the match of port `p`: EXACT entries before SPAN entries before MASKED entries. -/
def State.groupMatch (s : State) (p : Port) (g : GroupId) : Option EntryNo :=
  (s.matchKind p g .exact).or ((s.matchKind p g .span).or (s.matchKind p g .masked))

/-- R129: one port's part of group delivery with a slot. -/
def State.deliverGroupAt (source : NodeAddr) (g : GroupId) (length : Nat) (slot : SlotNo) (p : Port)
    (s : State) : Upd :=
  match s.groupMatch p g with
  | some e =>
    s.offer p { origin := .lineGroup source g e, arrival := s.line.round, length := length, slot := slot }
  | none => .start s

/-- R130, R132: a port that matches counts one loss. -/
def State.loseGroupAt (g : GroupId) (p : Port) (s : State) : Upd :=
  match s.groupMatch p g with
  | some _ => .start (s.countLoss p 1)
  | none => .start s

/-- R128: group delivery of a GOOD GROUP frame received in ACTIVE, with its slot (R129) or without one
(R130). -/
def State.deliverGroup (s : State) (source : NodeAddr) (g : GroupId) (length : Nat) : Upd :=
  match s.heldSlot with
  | some i => (Upd.start s).each allPorts (State.deliverGroupAt source g length i)
  | none => (Upd.start s).each allPorts (State.loseGroupAt g)

/-- The two ports other than the sending port (R132). -/
def otherPorts (p : Port) : List Port := allPorts.filter (· != p)

/-- R132, step 3: one port's part of an echo with a slot. -/
def State.echoAt (source : Port) (g : GroupId) (length : Nat) (slot : SlotNo) (p : Port) (s : State) : Upd :=
  match s.groupMatch p g with
  | some e =>
    s.offer p { origin := .echo source g e, arrival := s.line.round, length := length, slot := slot }
  | none => .start s

/-- R132: local echo of a group frame sent cleanly from port `source`. A slot that no record took returns to
the pool in the same event, which is a space event. -/
def State.echo (s : State) (source : Port) (g : GroupId) (payload : List Byte) : Upd :=
  let ports := otherPorts source
  if ports.any (fun p => (s.groupMatch p g).isSome) then
    match s.lowestFree with
    | none => (Upd.start s).each ports (State.loseGroupAt g)
    | some i =>
      let u := (Upd.start (s.writeSlot i payload)).each ports (State.echoAt source g payload.length i)
      { u with space := u.space || u.state.slotFree i }
  else .start s

end Sys2Proof.Machine
end

