-- ==== Sys2Proof/Machine/Confinement.lean ====
section
/-! DEFINITION. Fault confinement: window, states, clean rounds (03_fault_confinement.md). -/

namespace Sys2Proof.Machine

/-- Outcomes that the fault window holds at most (R38). -/
def windowSize : Nat := 16

/-- The health outcome of a raw result (R39). -/
def RawResult.health : RawResult → Health
  | .sentClean | .accept | .defer | .refuse => .ok
  | .noReply | .badReply | .collision => .fail

/-- An append; a full window loses its oldest outcome (R38). -/
def appendOutcome (w : List Health) (h : Health) : List Health :=
  if w.length < windowSize then w ++ [h] else w.tail ++ [h]

/-- The failure count f (R38). -/
def failures (w : List Health) : Nat := w.count .fail

/-- R40: the confinement state after an append that leaves f failures. No transmission end reaches a
silent node (R38, R41): its state stays. -/
def nextConfinement (st : ConfinementState) (f : Nat) : ConfinementState :=
  match st with
  | .engaged => if 4 ≤ f then .guarded else .engaged
  | .guarded => if 10 ≤ f then .silenced else if f ≤ 3 then .engaged else .guarded
  | .silenced => .silenced
  | .readyToResume => .readyToResume

/-- A change of the fault confinement unit; a change of its state sets LINE at all ports (R51). -/
def State.confine (s : State) (f : Confinement) : State :=
  let s1 := s.putFault f
  if f.state == s.fault.state then s1 else s1.raiseLine

/-- R39, R40: the fault confinement unit takes a transmission end. Entry to SILENCED sets the
spoiled-round marker and keeps the clean-round count at 0. -/
def State.appendHealth (s : State) (raw : RawResult) : State :=
  let w := appendOutcome s.fault.window raw.health
  let st := nextConfinement s.fault.state (failures w)
  if st == .silenced && s.fault.state != .silenced then
    s.confine { window := w, state := st, cleanRounds := 0, spoiled := true }
  else s.confine { s.fault with window := w, state := st }

/-- R44: an event that spoils the round. -/
def State.spoil (s : State) : State := s.putFault { s.fault with spoiled := true }

/-- R45: the clean-round count after a round boundary. Only SILENCED and ACTIVE counts; SILENCED in LEAVING
does not arise (log 16). -/
def State.countRound (s : State) : Nat :=
  if s.fault.state == .silenced && s.member.lineState == .active then
    if s.fault.spoiled then 0 else s.fault.cleanRounds + 1
  else s.fault.cleanRounds

/-- R45, R46: the fault confinement unit takes a round boundary: the round is evaluated, a count that
reaches 4 in SILENCED ends the silence by the recovery policy, and the marker is cleared (R44). -/
def State.confinementRoundBoundary (s : State) : State :=
  let n := s.countRound
  if s.fault.state == .silenced && 4 ≤ n then
    match s.member.config.recovery with
    | .auto => s.confine { window := [], state := .engaged, cleanRounds := 0, spoiled := false }
    | .manual => s.confine { s.fault with state := .readyToResume, cleanRounds := n, spoiled := false }
  else s.putFault { s.fault with cleanRounds := n, spoiled := false }

/-- The node is silent (R43). -/
def State.silent (s : State) : Bool :=
  s.fault.state == .silenced || s.fault.state == .readyToResume

end Sys2Proof.Machine
end

