-- ==== Sys2Proof/Machine/Frame.lean ====
section
/-! DEFINITION. The line frame: check word, layout, and the classification of a received activity. -/

namespace Sys2Proof.Machine

/-- The preamble (R2, R169). -/
def preamble : Byte := 0x55

/-- One bit of the cyclic check, generator 0x1021 (R3). -/
def checkBit (c : BitVec 16) : BitVec 16 :=
  if c.getMsbD 0 then (c <<< 1) ^^^ 0x1021#16 else c <<< 1

/-- `n` bits of the cyclic check. -/
def checkBits : Nat → BitVec 16 → BitVec 16
  | 0, c => c
  | n + 1, c => checkBits n (checkBit c)

/-- One byte enters the check most significant bit first (R3). -/
def checkByte (c : BitVec 16) (b : Byte) : BitVec 16 := checkBits 8 (c ^^^ (b ++ 0#8))

/-- The check word over header and payload bytes, initial value 0xFFFF (R3). -/
def checkWord (bs : List Byte) : BitVec 16 := bs.foldl checkByte 0xFFFF#16

/-! ## Building a frame (R13, R169) -/

/-- Header byte 0: bits 7 to 3 sender address, bit 2 kind. -/
def header0 (sender : NodeAddr) (group : Bool) : Byte := sender ++ (if group then 0b100#3 else 0b000#3)

/-- The four header bytes (R169). -/
def headerBytes (sender : NodeAddr) (body : FrameBody) (length : Nat) : List Byte :=
  match body with
  | .addressed dest chan seqBit fresh =>
    [header0 sender false,
     dest ++ (BitVec.ofBool seqBit ++ BitVec.ofBool fresh ++ 0#1),
     BitVec.ofNat 4 chan.val ++ 0#4,
     BitVec.ofNat 8 length]
  | .group gid =>
    [header0 sender true, gid.extractLsb' 4 8, gid.extractLsb' 0 4 ++ 0#4, BitVec.ofNat 8 length]

/-- Header and payload, over which the check is computed (R3). -/
def OwnFrame.checked (f : OwnFrame) : List Byte :=
  headerBytes f.sender f.body f.payload.length ++ f.payload

/-- The two characters of a check word, most significant byte first (R3). -/
def checkChars (c : BitVec 16) : List Byte := [c.extractLsb' 8 8, c.extractLsb' 0 8]

/-- The characters of an own frame in the order they are sent (R2, R13). -/
def OwnFrame.chars (f : OwnFrame) : List Byte :=
  preamble :: f.checked ++ checkChars (checkWord f.checked)

/-- The reply byte of a reply code (R4, R169). -/
def ReplyCode.byte : ReplyCode → Byte
  | .accept => 0x3C | .defer => 0x5A | .refuse => 0x69

/-- How the sender classifies what it receives in the reply window (R4). -/
def classifyReply : Option RxChar → RawResult
  | none => .noReply
  | some c =>
    if c.framingError then .badReply
    else if c.value == 0x3C then .accept
    else if c.value == 0x5A then .defer
    else if c.value == 0x69 then .refuse
    else .badReply

/-! ## Receiving (R5) -/

/-- The sender address in header byte 0 (R169). -/
def senderOf (h0 : Byte) : NodeAddr := h0.extractLsb' 3 5

/-- The kind bit in header byte 0: true for GROUP (R169). -/
def groupBit (h0 : Byte) : Bool := h0.getLsbD 2

/-- Check 1 of R5: the preamble or header byte 0 makes the activity a disturbance. -/
def isDisturbance (pre h0 : RxChar) : Bool :=
  pre.value != preamble || pre.framingError || h0.value.extractLsb' 0 2 != 0 || h0.framingError

/-- Check 2 of R5 for header byte 1, 2 or 3: a non-zero spare bit, or a length above 64. -/
def headerFormatBad (group : Bool) (n : Nat) (b : Byte) : Bool :=
  match n with
  | 1 => !group && b.getLsbD 0
  | 2 => b.extractLsb' 0 4 != 0
  | 3 => 64 < b.toNat
  | _ => false

/-- The first of header bytes 1 to 3, in order of arrival, that settles the frame by check 2 or 3 of R5
(at one byte check 2 comes before check 3: log 13). -/
def headerSettles (group : Bool) : Nat → List RxChar → Option RxClass
  | _, [] => none
  | n, c :: cs =>
    if headerFormatBad group n c.value then some .formatError
    else if c.framingError then some .checkError
    else headerSettles group (n + 1) cs

/-- What the line unit makes of an activity: the classification; whether it raised frame start; whether
its reception end falls at the last check byte (otherwise at quiet); the header byte 0; the other header
bytes; the payload bytes gathered. -/
structure Classified where
  cls : RxClass
  frameStart : Bool
  atCheckByte : Bool
  h0 : Byte
  h1 : Byte
  h2 : Byte
  payload : List Byte
  deriving DecidableEq, Repr

/-- An activity of which no header is read. -/
def Classified.noHeader (cls : RxClass) : Classified :=
  { cls := cls, frameStart := false, atCheckByte := false, h0 := 0, h1 := 0, h2 := 0, payload := [] }

/-- The bytes of characters. -/
def valuesOf (cs : List RxChar) : List Byte := cs.map (·.value)

/-- Checks 3 and 4 of R5 on the characters `tail` after a sound header with length field `length`. -/
def classifyTail (h0 h1 h2 : RxChar) (length : Byte) (tail : List RxChar) : Classified :=
  let needed := tail.take (length.toNat + 2)
  let payload := valuesOf (tail.take length.toNat)
  let v : Classified :=
    { cls := .checkError, frameStart := true, atCheckByte := false, h0 := h0.value, h1 := h1.value,
      h2 := h2.value, payload := payload }
  if needed.any (·.framingError) || needed.length < length.toNat + 2 then v
  else
    let check := checkChars (checkWord ([h0.value, h1.value, h2.value, length] ++ payload))
    { v with atCheckByte := true,
             cls := if valuesOf (needed.drop length.toNat) == check then .good else .checkError }

/-- The classification of a received activity by its characters, in order of arrival (R5). A disturbance
and a FORMAT_ERROR end at quiet; so does a frame that quiet, or a framing error, keeps from its last check
byte. A preamble alone followed by quiet is a CHECK_ERROR by check 3 (DEDUCED, log 12). -/
def classify : List RxChar → Classified
  | [] => .noHeader .checkError
  | [pre] =>
    if pre.value != preamble || pre.framingError then .noHeader .formatError else .noHeader .checkError
  | pre :: h0 :: rest =>
    if isDisturbance pre h0 then .noHeader .formatError
    else
      let begun : Classified :=
        { cls := .checkError, frameStart := true, atCheckByte := false, h0 := h0.value, h1 := 0, h2 := 0,
          payload := [] }
      match headerSettles (groupBit h0.value) 1 (rest.take 3) with
      | some cls => { begun with cls := cls }
      | none =>
        match rest with
        | h1 :: h2 :: h3 :: tail => classifyTail h0 h1 h2 h3.value tail
        | _ => begun

/-- Sender address of a classified frame. -/
def Classified.sender (v : Classified) : NodeAddr := senderOf v.h0

/-- Kind, destination, channel, sequence bit and fresh flag, or group id, of a classified frame (R169). -/
def Classified.body (v : Classified) : FrameBody :=
  if groupBit v.h0 then .group (v.h1 ++ v.h2.extractLsb' 4 4)
  else .addressed (v.h1.extractLsb' 3 5) (v.h2.extractLsb' 4 4).toFin (v.h1.getLsbD 2) (v.h1.getLsbD 1)

end Sys2Proof.Machine
end

