-- ==== Sys2Proof/Machine/Mailbox.lean ====
section
/-! DEFINITION. Mailbox bank: destinations, completion, settling of attempts, hold-off, release, withdrawal,
reset (04_transmit_mailboxes.md). -/

namespace Sys2Proof.Machine

/-- The destination on which per-destination order acts (R52, R76). -/
inductive Destination where
  | remote (node : NodeAddr) (channel : ChannelNo)
  | group (gid : GroupId)
  | localHandOff (channel : ChannelNo)
  deriving DecidableEq, Repr

/-- The destination of a record (R52). -/
def MailRecord.destination (r : MailRecord) : Destination :=
  match r.kind with
  | .remote => .remote r.dest r.channel
  | .group => .group r.group
  | .localHandOff => .localHandOff r.channel

/-- The destination of a mailbox; none if it holds no record. -/
def State.destination (s : State) (r : Ref) : Option Destination :=
  (s.mailbox r).record.map (·.destination)

/-- The kind of a mailbox; none if it holds no record. -/
def State.kind (s : State) (r : Ref) : Option MailKind := (s.mailbox r).record.map (·.kind)

/-- The mailbox is of kind LOCAL. -/
def State.isLocal (s : State) (r : Ref) : Bool := s.kind r == some .localHandOff

/-- A reference leaves the pending list; those after it close up (R75). -/
def State.dropRef (s : State) (r : Ref) : State := s.putRefs (s.sched.refs.filter (· != r))

/-- An index leaves its port's completion list (R66). -/
def State.dropCompletion (s : State) (r : Ref) : State :=
  s.putCompletions r.port ((s.completions r.port).filter (· != r.index))

/-- R66: a mailbox enters DONE. The outcome and cause are set, hold-off remaining becomes 0, the reference
leaves the pending list, the index is appended to the port's completion list, TXDONE is set. -/
def State.complete (s : State) (r : Ref) (o : MailOutcome) (c : Option ExpiryCause) : State :=
  let m := s.mailbox r
  let s1 := s.putMailbox r { m with state := .done, outcome := some o, cause := c, holdOff := 0 }
  let s2 := s1.dropRef r
  (s2.putCompletions r.port (s2.completions r.port ++ [r.index])).raiseTxDone r.port

/-- A completion inside an event: a reference leaves the pending list (R84). -/
def State.completeUpd (s : State) (r : Ref) (o : MailOutcome) (c : Option ExpiryCause) : Upd :=
  { state := s.complete r o c, removed := true, space := false }

/-- The expiry cause of a failed attempt (R59). -/
def RawResult.cause : RawResult → Option ExpiryCause
  | .defer => some .deferred
  | .noReply => some .noReply
  | .badReply => some .badReply
  | .collision => some .collision
  | .accept | .refuse | .sentClean => none

/-- R59, R60: the attempt of a SENDING mailbox with abort-pending clear is settled by the raw result. -/
def State.settleAttempt (s : State) (r : Ref) (raw : RawResult) : Upd :=
  match raw with
  | .accept => s.completeUpd r .accepted none
  | .refuse => s.completeUpd r .refused none
  | .sentClean => s.completeUpd r .sent none
  | .defer | .noReply | .badReply | .collision =>
    let m := s.mailbox r
    let limit := (m.record.map (·.retryLimit.toNat)).getD 0
    if limit < m.attempts then s.completeUpd r .expired raw.cause
    else .start (s.putMailbox r { m with state := .held })

/-- R64: the attempt of a SENDING mailbox with abort-pending set is settled, the retry limit not compared;
abort-pending is cleared, and late-abort is set where the frame had its effect. -/
def State.settleAborted (s : State) (r : Ref) (raw : RawResult) : Upd :=
  let late (b : Bool) := s.putMailbox r { s.mailbox r with abortPending := false, lateAbort := b }
  match raw with
  | .accept => (late true).completeUpd r .accepted none
  | .sentClean => (late true).completeUpd r .sent none
  | .refuse => (late true).completeUpd r .refused none
  | .defer | .noReply | .badReply | .collision => (late false).completeUpd r .aborted none

/-- A mailbox becomes VACANT with its fields at device-reset values and its reference leaves the pending
list (R72, R73). -/
def State.vacate (s : State) (r : Ref) : State := (s.putMailbox r .vacant).dropRef r

/-- The mailbox bank takes a transmission end (R59, R60, R64, R73). A mailbox that is neither SENDING nor
RETIRING does not arise here (R54) and is left as it is (log 21). -/
def State.settle (s : State) (r : Ref) (raw : RawResult) : Upd :=
  match (s.mailbox r).state with
  | .sending => if (s.mailbox r).abortPending then s.settleAborted r raw else s.settleAttempt r raw
  | .retiring => { state := s.vacate r, removed := true, space := false }
  | .vacant | .loaded | .queued | .held | .waitingSpace | .done => .start s

/-- R57, R61: what a round boundary does to one mailbox. Hold-off remaining of a QUEUED mailbox above 0 is
reduced by 1; a HELD mailbox becomes QUEUED with hold-off remaining 0. -/
def Mailbox.atRoundBoundary (m : Mailbox) : Mailbox :=
  match m.state with
  | .queued => { m with holdOff := m.holdOff - (if m.holdOff == 0 then 0 else 1) }
  | .held => { m with state := .queued, holdOff := 0 }
  | .vacant | .loaded | .sending | .waitingSpace | .done | .retiring => m

/-- All twelve mailboxes, by port and index. -/
def allRefs : List Ref := allPorts.flatMap (fun p => allIndices.map (fun i => { port := p, index := i }))

/-- R57: the boundary brings the hold-off remaining of this QUEUED LOCAL mailbox to 0. -/
def State.holdOffEnds (s : State) (r : Ref) : Bool :=
  s.isLocal r && (s.mailbox r).state == .queued && (s.mailbox r).holdOff == 1

/-- The mailbox bank takes a round boundary (R57, R61). -/
def State.bankRoundBoundary (s : State) : State :=
  { s with mail := { s.mail with boxes := s.mail.boxes.map (·.map (·.atRoundBoundary)) } }

/-- R71: this mailbox is withdrawn at entry to OFFLINE: REMOTE or GROUP, and QUEUED or HELD. -/
def State.withdrawable (s : State) (r : Ref) : Bool :=
  (s.kind r == some .remote || s.kind r == some .group)
    && ((s.mailbox r).state == .queued || (s.mailbox r).state == .held)

/-- R71: at entry to OFFLINE every REMOTE or GROUP mailbox that is QUEUED or HELD becomes DONE WITHDRAWN, in
the order of the pending list. -/
def State.withdrawAll (s : State) : Upd :=
  (Upd.start s).each s.sched.refs
    (fun r s => if s.withdrawable r then s.completeUpd r .withdrawn none else .start s)

/-- R72: what a port reset does to one mailbox of the port. -/
def State.resetMailbox (s : State) (r : Ref) : Upd :=
  match (s.mailbox r).state with
  | .sending => .start (s.putMailbox r { s.mailbox r with state := .retiring, abortPending := false })
  | .retiring => .start s
  | .vacant | .loaded | .queued | .held | .waitingSpace | .done =>
    { state := s.vacate r, removed := s.sched.refs.contains r, space := false }

/-- R72: a port reset at the mailbox bank: the four mailboxes and the completion list of the port. -/
def State.resetMailboxes (s : State) (p : Port) : Upd :=
  ((Upd.start s).each allIndices (fun i s => s.resetMailbox { port := p, index := i })).on
    (fun s => s.putCompletions p [])

end Sys2Proof.Machine
end

