-- ==== Sys2Proof/Machine/Sequence.lean ====
section
/-! DEFINITION. Sequence unit: outbound and inbound tables (06_sequence_tables.md). -/

namespace Sys2Proof.Machine

/-- Places of each sequence table (R92). -/
def tablePlaces : Nat := 32

/-- The key of an outbound entry is this pair. -/
def OutEntry.isFor (e : OutEntry) (node : NodeAddr) (c : ChannelNo) : Bool :=
  e.node == node && e.channel == c

/-- The key of an inbound entry is this pair. -/
def InEntry.isFor (e : InEntry) (node : NodeAddr) (c : ChannelNo) : Bool :=
  e.node == node && e.channel == c

/-- R94: an entry is busy while a REMOTE mailbox to its pair is on the pending list with attempts above
0. -/
def State.busyEntry (s : State) (e : OutEntry) : Bool :=
  s.sched.refs.any (fun r =>
    0 < (s.mailbox r).attempts && s.destination r == some (.remote e.node e.channel))

/-- Removes the last element that satisfies `p`: in recency order, the least recently used one. -/
def eraseLastP {α : Type} (p : α → Bool) (l : List α) : List α := (l.reverse.eraseP p).reverse

/-- R95: room for a new outbound entry; a full table loses its least recently used entry that is not
busy. -/
def State.roomOutbound (s : State) : List OutEntry :=
  if s.seq.outbound.length < tablePlaces then s.seq.outbound
  else eraseLastP (fun e => !s.busyEntry e) s.seq.outbound

/-- R93, R95: the entry that a choice uses for the pair, created with bit 0 and the fresh flag if there is
none. -/
def State.outboundEntry (s : State) (node : NodeAddr) (c : ChannelNo) : OutEntry :=
  (s.seq.outbound.find? (·.isFor node c)).getD
    { node := node, channel := c, nextBit := false, fresh := true }

/-- R93, R95: the outbound table after a use of the pair: the entry stands at the front. -/
def State.useOutbound (s : State) (node : NodeAddr) (c : ChannelNo) : State :=
  let e := s.outboundEntry node c
  let rest :=
    if s.seq.outbound.any (·.isFor node c) then s.seq.outbound.filter (fun x => !x.isFor node c)
    else s.roomOutbound
  s.putSeq { s.seq with outbound := e :: rest }

/-- R97: what a transmission end does to the entry of its pair. -/
def OutEntry.settle (raw : RawResult) (e : OutEntry) : OutEntry :=
  match raw with
  | .accept => { e with nextBit := !e.nextBit, fresh := false }
  | .defer => { e with fresh := false }
  | .refuse | .noReply | .badReply | .collision | .sentClean => e

/-- R97: the sequence unit takes the transmission end of an ADDRESSED frame; a GROUP frame does not reach
the table. -/
def State.settleOutbound (s : State) (f : OwnFrame) (raw : RawResult) : State :=
  match f.body with
  | .addressed dest chan _ _ =>
    s.putSeq { s.seq with
      outbound := s.seq.outbound.map (fun e => if e.isFor dest chan then e.settle raw else e) }
  | .group _ => s

/-- R101: room for a new inbound entry; a full table loses its least recently used entry. -/
def State.roomInbound (s : State) : List InEntry :=
  if s.seq.inbound.length < tablePlaces then s.seq.inbound else s.seq.inbound.dropLast

/-- R98, steps 1 to 3: the inbound entry after the sequence check of a frame, at the front of the table. -/
def State.checkedEntry (s : State) (node : NodeAddr) (c : ChannelNo) (bit fresh : Bool) : InEntry :=
  match s.seq.inbound.find? (·.isFor node c) with
  | some e => if fresh then { e with expected := bit } else e
  | none => { node := node, channel := c, expected := bit }

/-- R98: the sequence check. The answer is true for a duplicate. -/
def State.sequenceCheck (s : State) (node : NodeAddr) (c : ChannelNo) (bit fresh : Bool) : State × Bool :=
  let e := s.checkedEntry node c bit fresh
  let rest :=
    if s.seq.inbound.any (·.isFor node c) then s.seq.inbound.filter (fun x => !x.isFor node c)
    else s.roomInbound
  (s.putSeq { s.seq with inbound := e :: rest }, e.expected != bit)

/-- R99: at a delivery the expected bit of the pair changes to the other value. -/
def State.toggleExpected (s : State) (node : NodeAddr) (c : ChannelNo) : State :=
  s.putSeq { s.seq with
    inbound := s.seq.inbound.map (fun e =>
      if e.isFor node c then { e with expected := !e.expected } else e) }

/-- R103: removes the inbound entries whose local channel satisfies `gone`. -/
def State.forgetInbound (s : State) (gone : ChannelNo → Bool) : State :=
  s.putSeq { s.seq with inbound := s.seq.inbound.filter (fun e => !gone e.channel) }

end Sys2Proof.Machine
end

