-- ==== Sys2Proof/Machine/Scheduler.lean ====
section
/-! DEFINITION. Turn scheduler: per-destination order, eligibility, the local pass, the choice at the own
turn, and the hand-over of a frame (05_turn_scheduling_and_local_hand_off.md). -/

namespace Sys2Proof.Machine

/-- The references earlier than `r` on the pending list (05, "Earlier, later"). -/
def State.earlier (s : State) (r : Ref) : List Ref := s.sched.refs.takeWhile (· != r)

/-- R76: a mailbox is blocked when an earlier reference has the same destination. -/
def State.blocked (s : State) (r : Ref) : Bool :=
  (s.earlier r).any (fun e => s.destination e == s.destination r)

/-- QUEUED, hold-off remaining 0, not blocked (R77). -/
def State.free (s : State) (r : Ref) : Bool :=
  (s.mailbox r).state == .queued && (s.mailbox r).holdOff == 0 && !s.blocked r

/-- R77: eligible for choice. -/
def State.eligible (s : State) (r : Ref) : Bool :=
  (s.kind r == some .remote || s.kind r == some .group) && s.free r

/-! ## Local hand-off -/

/-- R86: the frame of a LOCAL mailbox is copied into slot `i` and appended to the queue of port `p` as a
LOCAL record; the mailbox completes ACCEPTED. -/
def State.handOff (s : State) (r : Ref) (rec : MailRecord) (p : Port) (i : SlotNo) : State :=
  let s1 := s.writeSlot i rec.payload
  let s2 := s1.appendRecord p
    { origin := .handOff r.port rec.channel, arrival := s.line.round, length := rec.payload.length, slot := i }
  s2.complete r .accepted none

/-- The mailbox becomes WAITING_SPACE and keeps its place (R62, R85). -/
def State.waitForSpace (s : State) (r : Ref) : State :=
  s.putMailbox r { s.mailbox r with state := .waitingSpace }

/-- R85: the local hand-off decision for one LOCAL mailbox with record `rec`. -/
def State.decideLocal (s : State) (r : Ref) (rec : MailRecord) : State :=
  match (s.channel rec.channel).state, (s.channel rec.channel).owner with
  | .opened, some p =>
    if (s.queue p).full then s.waitForSpace r
    else
      match s.lowestFree with
      | none => s.waitForSpace r
      | some i => s.handOff r rec p i
  | _, _ => s.complete r .refused none

/-- R84: what a local pass does when it reaches a reference. `retry` tells a pass made at a space event or
at a port reset, which decides a WAITING_SPACE mailbox too. -/
def State.passAt (retry : Bool) (s : State) (r : Ref) : State :=
  match (s.mailbox r).record with
  | some rec =>
    if rec.kind == .localHandOff && (s.free r || (retry && (s.mailbox r).state == .waitingSpace)) then
      s.decideLocal r rec
    else s
  | none => s

/-- R84: one local pass: once through the pending list, earliest first. -/
def State.localPass (retry : Bool) (s : State) : State :=
  s.sched.refs.foldl (State.passAt retry) s

/-- The end of an event: the local pass that what it raised calls for (R84, R88); one pass, made once the
event has been taken (log 11). -/
def Upd.finish (u : Upd) : State :=
  if u.space then u.state.localPass true
  else if u.removed then u.state.localPass false
  else u.state

/-! ## The choice at the own turn -/

/-- R78: the node may transmit. -/
def State.mayTransmit (s : State) : Bool :=
  s.member.lineState == .active && s.mode == some .full
    && (s.fault.state == .engaged || (s.fault.state == .guarded && !s.line.round.getLsbD 0))

/-- The precedence key of a mailbox (R52). -/
def State.key (s : State) (r : Ref) : Nat := ((s.mailbox r).record.map (·.key.toNat)).getD 0

/-- The lowest precedence key; among equal keys the earliest of the list (R79, R80). -/
def State.lowestKey (s : State) : List Ref → Option Ref
  | [] => none
  | r :: rest =>
    match s.lowestKey rest with
    | some b => if s.key b < s.key r then some b else some r
    | none => some r

/-- The eligible mailboxes, earliest first (R77). -/
def State.eligibles (s : State) : List Ref := s.sched.refs.filter s.eligible

/-- The eligible mailboxes of one port, earliest first. -/
def State.eligiblesOf (s : State) (p : Port) : List Ref := s.eligibles.filter (fun r => r.port == p)

/-- R80: the mailbox chosen when a port is served, by its transmit order. -/
def State.choiceOf (s : State) (p : Port) : Option Ref :=
  match s.order p with
  | .key => s.lowestKey (s.eligiblesOf p)
  | .arrival => (s.eligiblesOf p).head?

/-- R80: the ports in the order in which they are examined from the rotation pointer. -/
def rotationFrom (p : Port) : List Port := [p, p + 1, p + 2]

/-- R79, R80: the choice by the share policy, with the rotation pointer after it. -/
def State.choose (s : State) : Option (Ref × Port) :=
  match s.member.config.share with
  | .key => (s.lowestKey s.eligibles).map (fun r => (r, s.sched.rotation))
  | .rotate =>
    (rotationFrom s.sched.rotation).findSome? (fun p => (s.choiceOf p).map (fun r => (r, p + 1)))

/-- The own frame that the line unit builds from a record, with the bit and flag of `e` for an ADDRESSED
frame (R13). -/
def buildFrame (r : Ref) (sender : NodeAddr) (rec : MailRecord) (e : OutEntry) : OwnFrame :=
  { ref := r, sender := sender, payload := rec.payload,
    body := match rec.kind with
      | .group => .group rec.group
      | .remote | .localHandOff => .addressed rec.dest rec.channel e.nextBit e.fresh }

/-- R13: the line unit starts an own frame. -/
def State.startFrame (s : State) (f : OwnFrame) : State :=
  s.putLine { s.line with own := some f, activity := .transmitting, den := true, txd := f.chars }

/-- R58: the mailbox bank takes the choice. -/
def State.markSending (s : State) (r : Ref) : State :=
  let m := s.mailbox r
  s.putMailbox r { m with state := .sending, attempts := m.attempts + 1 }

/-- R82: the chosen mailbox becomes SENDING, a REMOTE one takes its sequence bit, the line unit starts the
frame. -/
def State.handFrame (s : State) (r : Ref) (rec : MailRecord) : State :=
  let s1 := s.markSending r
  let e := s1.outboundEntry rec.dest rec.channel
  let s2 := if rec.kind == .remote then s1.useOutbound rec.dest rec.channel else s1
  s2.startFrame (buildFrame r s.member.config.nodeAddress rec e)

/-- The rotation pointer moves (R80). -/
def State.putRotation (s : State) (p : Port) : State :=
  { s with sched := { s.sched with rotation := p } }

/-- R78: the turn scheduler takes own turn begins. -/
def State.ownTurnBegins (s : State) : State :=
  if s.mayTransmit then
    match s.choose with
    | some (r, p) =>
      match (s.mailbox r).record with
      | some rec => (s.putRotation p).handFrame r rec
      | none => s
    | none => s
  else s

end Sys2Proof.Machine
end

