-- ==== Sys2Proof/Machine/Channels.lean ====
section
/-! DEFINITION. Channel table: the reply decision for addressed frames
(07_channels_and_addressed_delivery.md). -/

namespace Sys2Proof.Machine

/-- The owner port of a channel that can receive: OPEN (R107, R116 check 2). -/
def Channel.receiver (c : Channel) : Option Port :=
  match c.state with
  | .opened => c.owner
  | .closed | .halted => none

/-- R117: an addressed frame is delivered: the record is appended to the owner's queue, the expected bit
changes. -/
def State.deliverAddressed (s : State) (source : NodeAddr) (c : ChannelNo) (length : Nat) (p : Port)
    (i : SlotNo) : State :=
  (s.appendRecord p { origin := .lineAddressed source c, arrival := s.line.round, length := length,
                      slot := i }).toggleExpected source c

/-- R116: the reply decision for a frame from `source` to channel `c`: the state after it and the reply
code, none for no reply. -/
def State.replyDecision (s : State) (source : NodeAddr) (c : ChannelNo) (bit fresh : Bool) (length : Nat) :
    State × Option ReplyCode :=
  if s.mode == some .listen || s.silent then (s, none)
  else
    match (s.channel c).receiver with
    | none => (s, some .refuse)
    | some p =>
      let checked := s.sequenceCheck source c bit fresh
      if checked.2 then (checked.1, some .accept)
      else
        match s.heldSlot with
        | none => (checked.1, some .defer)
        | some i =>
          if (s.queue p).full then (checked.1, some .defer)
          else (checked.1.deliverAddressed source c length p i, some .accept)

end Sys2Proof.Machine
end

