-- ==== Sys2Proof/Machine/Membership.lean ====
section
/-! DEFINITION. Membership: votes, line state moves and what they bring with them
(02_membership_and_line_configuration.md). -/

namespace Sys2Proof.Machine

/-- R18, R29: a reception that began in ACTIVE is abandoned when the line state becomes LEAVING; the line
unit follows the activity to its end without gathering (log 25). -/
def State.abandonReception (s : State) : Upd :=
  match s.line.reception with
  | some rx =>
    if rx.activeAtStart && (rx.phase == .opening || rx.phase == .disturbance || rx.phase == .frame) then
      (s.endReceptionSlot).on
        (fun s => s.putLine { s.line with reception := some { rx with phase := .abandoned } })
    else .start s
  | none => .start s

/-- R11, R30: the line unit takes entry to OFFLINE: a reception is abandoned and its slot returned, a reply
byte is cut short, the line activity state becomes IDLE, sampling stops. -/
def State.lineOffline (s : State) : Upd :=
  (s.endReceptionSlot).on (fun s =>
    s.putLine { s.line with activity := .idle, reception := none, reply := none, den := false, txd := [],
                            betweenTurns := false, busyUntilIdle := false, firstTurnDue := false })

/-- R30: the blocks take entry to OFFLINE. LINE is raised by the caller (R31). -/
def State.enterOffline (s : State) : Upd :=
  ((s.lineOffline).andThen State.withdrawAll).on (fun s => s.putFault { s.fault with cleanRounds := 0 })

/-- R26: the line unit starts the sync search. -/
def State.startSyncSearch (s : State) : State :=
  s.putLine { s.line with syncIdle := 0, busyUntilIdle := true }

/-- The line state takes a value. -/
def State.putLineState (s : State) (l : LineState) : State :=
  { s with member := { s.member with lineState := l } }

/-- The votes take values. -/
def State.putVotes (s : State) (v : Vector Vote 3) : State :=
  { s with member := { s.member with votes := v } }

/-- R25, R26, R28, R29: the line state after votes that leave the set empty or not. -/
def nextLineState (l : LineState) (empty inFlight : Bool) : LineState :=
  match l with
  | .offline => if empty then .offline else .syncing
  | .syncing => if empty then .offline else .syncing
  | .active => if empty then (if inFlight then .leaving else .offline) else .active
  | .leaving => if empty then .leaving else .active

/-- The move of the line state to `l`, with what the new state brings (R25 to R30). -/
def State.moveLineState (s : State) (l : LineState) : Upd :=
  if l == s.member.lineState then .start s
  else
    match l with
    | .offline => (s.putLineState .offline).enterOffline
    | .syncing => .start ((s.putLineState .syncing).startSyncSearch)
    | .leaving => (s.putLineState .leaving).abandonReception
    | .active => .start (s.putLineState .active)

/-- R31: LINE is set at all ports when the line state or the mode differs from that of `before`. -/
def State.announceLine (before s : State) : State :=
  if before.member.lineState == s.member.lineState && before.mode == s.mode then s else s.raiseLine

/-- R23, R24, R28, R29: the votes take new values, and line state and mode follow. -/
def State.applyVotes (s : State) (v : Vector Vote 3) : Upd :=
  ((s.putVotes v).moveLineState (nextLineState s.member.lineState (votesEmpty v) s.inFlight)).on
    (fun t => State.announceLine s t)

/-- R29: in LEAVING the membership unit takes the transmission end of the own frame: OFFLINE. -/
def State.leaveAtEnd (s : State) : Upd :=
  if s.member.lineState == .leaving then
    (s.moveLineState .offline).on (fun t => State.announceLine s t)
  else .start s

/-- R12, R27, R44: sync established. The line state becomes ACTIVE, the round is spoiled. -/
def State.syncEstablished (s : State) : State :=
  (State.announceLine s (s.putLineState .active)).spoil

end Sys2Proof.Machine
end

