-- ==== Sys2Proof/Machine/LineUnit.lean ====
section
/-! DEFINITION. Line unit: turns, round boundaries, slips, frame start, reception end, transmission end
(01_the_turn_line.md), each shared by the rows that raise it. -/

namespace Sys2Proof.Machine

/-! ## Turns and rounds -/

/-- A free order is drawn (log 7, log 8). -/
def State.drawn (s : State) : State := { s with draws := s.draws + 1 }

/-- R7: the round number advances. -/
def State.advanceRound (s : State) : State := s.putLine { s.line with round := s.line.round + 1 }

/-- R7, R45, R57, R61, R84: the blocks take a round boundary; the round number has already advanced. A
boundary that brings a QUEUED LOCAL mailbox's hold-off to 0 makes a local pass. -/
def State.roundBoundary (s : State) : State :=
  let ends := allRefs.any s.holdOffEnds
  let s1 := s.bankRoundBoundary
  (if ends then s1.localPass false else s1).confinementRoundBoundary

/-- R6, R7: a turn begins: the turn counter advances modulo 32, and the round number with it at the wrap
from 31 to 0. -/
def State.advanceTurn (s : State) : State :=
  let s1 := s.putLine { s.line with turn := s.line.turn + 1, betweenTurns := false }
  if s.line.turn == 31 then s1.advanceRound else s1

/-- R8: the turn that has just begun is the own turn. -/
def State.isOwnTurn (s : State) : Bool := s.line.turn == s.member.config.nodeAddress

/-- R6, R7, R8: a turn begins with the line idle. Where a round boundary and own turn begins fall together
the rule fixes no order (R83): a free value (log 7). -/
def State.beginTurnIdle (s : State) : State :=
  let wrap := s.line.turn == 31
  let s1 := s.advanceTurn
  if wrap && s1.isOwnTurn then
    if Config.boundaryFirst s.draws then s1.drawn.roundBoundary.ownTurnBegins
    else s1.drawn.ownTurnBegins.roundBoundary
  else if wrap then s1.roundBoundary
  else if s1.isOwnTurn then s1.ownTurnBegins
  else s1

/-- R6: a turn begins at the first start bit of an activity: own turn begins is not raised (R8). -/
def State.beginTurnBusy (s : State) : State :=
  if s.line.turn == 31 then s.advanceTurn.roundBoundary else s.advanceTurn

/-- R7, R12: the first turn after sync by the sync idle count is turn 0, without a round boundary. -/
def State.startFirstTurn (s : State) : State :=
  s.putLine { s.line with turn := 0, betweenTurns := false, firstTurnDue := false }

/-- R8, R12: that turn begins with the line idle, and own turn begins is raised in it. -/
def State.firstTurnBegins (s : State) : State :=
  let s1 := s.startFirstTurn
  if s1.isOwnTurn then s1.ownTurnBegins else s1

/-- The line time of an activity ends: IDLE, and the interframe space while turn tracking runs (R4, R6,
R19). -/
def State.endLineTime (s : State) : State :=
  s.putLine { s.line with activity := .idle, reception := none, betweenTurns := s.tracking }

/-! ## Slips and frame start -/

/-- A 16-bit counter that stays at 65535 (R20). -/
def saturatingSucc (c : BitVec 16) : BitVec 16 := if c == 65535 then c else c + 1

/-- R9, R10: a slip with the sender address `a`: the counter, slip detected, and while turn tracking runs a
round boundary if the turn counter moves backwards, and the new turn. -/
def State.slip (s : State) (a : NodeAddr) : State :=
  let s1 := (s.putLine { s.line with turnSlips := saturatingSucc s.line.turnSlips }).spoil
  if s.tracking then
    let s2 := if a < s.line.turn then s1.advanceRound.roundBoundary else s1
    s2.putLine { s2.line with turn := a }
  else s1

/-- R17, R136: frame start. In ACTIVE a slot is requested. -/
def State.frameStart (s : State) (chars : List RxChar) : State :=
  let active := s.member.lineState == .active
  let s1 := if active then s.takeReceptionSlot else s.putLine { s.line with holdFlag := false }
  s1.putLine { s1.line with
    reception := some { phase := .frame, chars := chars, activeAtStart := active } }

/-- The activity is followed to its end without a reception: a disturbance or a foreign use (R5, R10). -/
def State.follow (s : State) (phase : RxPhase) (chars : List RxChar) : State :=
  s.putLine { s.line with
    reception := some { phase := phase, chars := chars, activeAtStart := s.member.lineState == .active } }

/-- R10: a foreign use of the node's identity. -/
def State.foreignUse (s : State) (chars : List RxChar) : State :=
  (s.slip s.member.config.nodeAddress).follow .foreign chars

/-- R5 check 1, R9, R10, R17: header byte 0 of a received activity completes. -/
def State.headerZero (s : State) (pre h0 : RxChar) : State :=
  let chars := [pre, h0]
  if isDisturbance pre h0 then s.follow .disturbance chars
  else
    let a := senderOf h0.value
    if a == s.member.config.nodeAddress then s.foreignUse chars
    else if s.tracking && a != s.line.turn then (s.slip a).frameStart chars
    else s.frameStart chars

/-! ## Transmission end -/

/-- R132, R133: the acceptance table takes SENT_CLEAN. Where the mailbox has left the pending list, the local
pass that follows and the echo stand in no fixed order: a free value (log 8). -/
def Upd.echo (u : Upd) (f : OwnFrame) : Upd :=
  match f.body with
  | .addressed _ _ _ _ => u
  | .group g =>
    let passed : Upd :=
      if u.removed && Config.passBeforeEcho u.state.draws then
        { state := (u.state.localPass u.space).drawn, removed := false, space := false }
      else u.on State.drawn
    passed.andThen (fun s => s.echo f.ref.port g f.payload)

/-- R14, R15: transmission end, taken by the mailbox bank, the fault confinement unit, the sequence unit, the
acceptance table for SENT_CLEAN, and last the membership unit in LEAVING (R29); then the local pass. The
own-frame-in-flight flag is cleared as the event is raised. -/
def State.transmissionEnd (s : State) (f : OwnFrame) (raw : RawResult) : State :=
  let s1 := s.putLine { s.line with own := none, den := false, txd := [] }
  let u := ((s1.settle f.ref raw).on (fun s => s.appendHealth raw)).on (fun s => s.settleOutbound f raw)
  let u := if raw == .sentClean then u.echo f else u
  (u.andThen State.leaveAtEnd).finish

/-! ## Reception end -/

/-- R12: a GOOD reception end from another node establishes sync in SYNCING. -/
def State.syncByFrame (s : State) (v : Classified) : State :=
  if s.member.lineState == .syncing && v.cls == .good && v.sender != s.member.config.nodeAddress then
    (s.putLine { s.line with turn := v.sender }).syncEstablished
  else s

/-- R20, R44: the counters and the spoiled-round marker take a reception end. -/
def State.countReception (s : State) (c : RxClass) : State :=
  match c with
  | .good => s
  | .checkError => (s.putLine { s.line with checkErrors := saturatingSucc s.line.checkErrors }).spoil
  | .formatError => s.spoil

/-- R17, R136: the payload bytes of the frame stand in its slot (log 4). -/
def State.keepPayload (s : State) (payload : List Byte) : State :=
  match s.heldSlot with
  | some i => s.writeSlot i payload
  | none => s

/-- The reply decision has handed its code to the line unit (R16, R118). -/
def State.putReply (s : State) (c : Option ReplyCode) : State := s.putLine { s.line with reply := c }

/-- R115, R128: the reply decision or group delivery of a reception end that was ACTIVE from frame start. -/
def State.decideReception (s : State) (v : Classified) : Upd :=
  match v.body with
  | .addressed dest c bit fresh =>
    if dest == s.member.config.nodeAddress then
      let d := s.replyDecision v.sender c bit fresh v.payload.length
      .start (d.1.putReply d.2)
    else .start s
  | .group g => s.deliverGroup v.sender g v.payload.length

/-- Reception end has been raised. A GROUP frame whose reception end falls at its last check byte ends its
line time there (R4, log 14); any other activity waits for the end of its line time. -/
def State.afterReceptionEnd (s : State) (v : Classified) (rx : Reception) : State :=
  if v.atCheckByte && groupBit v.h0 then s.endLineTime
  else s.putLine { s.line with reception := some { rx with phase := .ended } }

/-- R18: reception end of the activity `rx`, classified as `v`. -/
def State.receptionEnd (s : State) (rx : Reception) (v : Classified) : State :=
  let s1 := ((s.countReception v.cls).keepPayload v.payload).syncByFrame v
  let u := if rx.activeAtStart && v.frameStart && v.cls == .good then s1.decideReception v else .start s1
  ((u.andThen State.endReceptionSlot).on (fun s => s.afterReceptionEnd v rx)).finish

end Sys2Proof.Machine
end

