-- ==== Sys2Proof/Machine/Operands.lean ====
section
/-! DEFINITION. Operand bytes of the port commands and the codes and layouts of read data. -/

namespace Sys2Proof.Machine

/-! ## Reading operand bytes -/

/-- A vote (R23). -/
def Vote.ofByte (b : Byte) : Option Vote :=
  if b == 0 then some .none else if b == 1 then some .listen else if b == 2 then some .full
  else Option.none

/-- A share policy (R33). -/
def SharePolicy.ofByte (b : Byte) : Option SharePolicy :=
  if b == 0 then some .key else if b == 1 then some .rotate else none

/-- A recovery policy (R33). -/
def RecoveryPolicy.ofByte (b : Byte) : Option RecoveryPolicy :=
  if b == 0 then some .auto else if b == 1 then some .manual else none

/-- A transmit order (R162). -/
def TransmitOrder.ofByte (b : Byte) : Option TransmitOrder :=
  if b == 0 then some .key else if b == 1 then some .arrival else none

/-- An overflow policy (R148). -/
def OverflowPolicy.ofByte (b : Byte) : Option OverflowPolicy :=
  if b == 0 then some .dropNew else if b == 1 then some .displace else none

/-- The initial state of a CLAIM (R109). -/
def ChannelState.ofClaimByte (b : Byte) : Option ChannelState :=
  if b == 0 then some .opened else if b == 1 then some .halted else none

/-- A mailbox kind (R52). -/
def MailKind.ofByte (b : Byte) : Option MailKind :=
  if b == 0 then some .remote else if b == 1 then some .localHandOff else if b == 2 then some .group
  else none

/-- An entry kind (R122, R123). -/
def EntryKind.ofByte (b : Byte) : Option EntryKind :=
  if b == 0 then some .exact else if b == 1 then some .span else if b == 2 then some .masked else none

/-- A number below `n`, out of range otherwise. -/
def indexOfByte (n : Nat) (b : Byte) : Option (Fin n) :=
  if h : b.toNat < n then some ⟨b.toNat, h⟩ else none

/-- A bit of a flag byte: 0 clear, 1 set, out of range otherwise (R123). -/
def boolOfByte (b : Byte) : Option Bool :=
  if b == 0 then some false else if b == 1 then some true else none

/-- A two-byte field, most significant byte first (R168 ff., 00_scope.md "Byte order"). -/
def twoBytes (hi lo : Byte) : BitVec 16 := hi ++ lo

/-- A two-byte field of at most 4095. -/
def groupOfBytes (hi lo : Byte) : Option GroupId :=
  if (twoBytes hi lo).toNat < 4096 then some ((twoBytes hi lo).setWidth 12) else none

/-- The line configuration record that CONFIGURE carries; none when a field is out of range (R33,
check 3). -/
def lineConfigOf (addr rate share recovery : Byte) : Option LineConfig :=
  match indexOfByte 5 rate, SharePolicy.ofByte share, RecoveryPolicy.ofByte recovery with
  | some r, some sh, some rec =>
    if addr.toNat < 32 then
      some { nodeAddress := addr.setWidth 5, bitRate := r, share := sh, recovery := rec }
    else none
  | _, _, _ => none

/-- The mailbox record that LOAD carries in its ten bytes and its payload; none when the kind, the length
or a field that the kind uses is out of range (R52, R55 check 4, R170). A field that the kind does not
use is held as 0. -/
def mailRecordOf (kind dest chan gHi gLo key retry hold : Byte) (length : Byte) (payload : List Byte) :
    Option MailRecord :=
  if length.toNat ≤ 64 then
    match MailKind.ofByte kind with
    | some .remote =>
      match indexOfByte 16 chan with
      | some c =>
        if dest.toNat < 32 ∧ retry.toNat < 16 then
          some { kind := .remote, dest := dest.setWidth 5, channel := c, group := 0, key := key,
                 retryLimit := retry.setWidth 4, holdOffRounds := hold,
                 payload := payload.take length.toNat }
        else none
      | none => none
    | some .localHandOff =>
      match indexOfByte 16 chan with
      | some c =>
        some { kind := .localHandOff, dest := 0, channel := c, group := 0, key := key, retryLimit := 0,
               holdOffRounds := hold, payload := payload.take length.toNat }
      | none => none
    | some .group =>
      match groupOfBytes gHi gLo with
      | some g =>
        if retry.toNat < 16 then
          some { kind := .group, dest := 0, channel := 0, group := g, key := key,
                 retryLimit := retry.setWidth 4, holdOffRounds := hold,
                 payload := payload.take length.toNat }
        else none
      | none => none
    | none => none
  else none

/-- The acceptance entry that SET_ENTRY writes for a port; none when a field is out of range (R123,
checks 3 and 4). The second parameter of EXACT is held as 0, the value of MASKED is reduced to its mask
(R122). -/
def entryOf (p : Port) (enabled kind fHi fLo sHi sLo : Byte) : Option Entry :=
  match boolOfByte enabled, EntryKind.ofByte kind, groupOfBytes fHi fLo with
  | some en, some .exact, some f =>
    some { owner := some p, enabled := en, kind := .exact, first := f, second := 0 }
  | some en, some .span, some f =>
    match groupOfBytes sHi sLo with
    | some l => if f ≤ l then some { owner := some p, enabled := en, kind := .span, first := f, second := l }
                else none
    | none => none
  | some en, some .masked, some f =>
    match groupOfBytes sHi sLo with
    | some m => some { owner := some p, enabled := en, kind := .masked, first := f &&& m, second := m }
    | none => none
  | _, _, _ => none

/-! ## Codes reported to the client -/

/-- Result codes (R168). -/
def Result.code : Result → Byte
  | .ok => 0x00 | .badCommand => 0x01 | .badArgument => 0x02 | .truncated => 0x03 | .busy => 0x04
  | .notPending => 0x05 | .ownedElsewhere => 0x06 | .notOwner => 0x07 | .offline => 0x08
  | .empty => 0x09 | .notReady => 0x0A

/-- Vote codes (R22). -/
def Vote.code : Vote → Byte
  | .none => 0 | .listen => 1 | .full => 2

/-- Mode as READ_LINE reports it (R24). -/
def modeCode : Option Mode → Byte
  | none => 0 | some .listen => 1 | some .full => 2

/-- Line state codes (R25). -/
def LineState.code : LineState → Byte
  | .offline => 0 | .syncing => 1 | .active => 2 | .leaving => 3

/-- Share policy codes (R35). -/
def SharePolicy.code : SharePolicy → Byte
  | .key => 0 | .rotate => 1

/-- Recovery policy codes (R35). -/
def RecoveryPolicy.code : RecoveryPolicy → Byte
  | .auto => 0 | .manual => 1

/-- Confinement state codes (R41). -/
def ConfinementState.code : ConfinementState → Byte
  | .engaged => 0 | .guarded => 1 | .silenced => 2 | .readyToResume => 3

/-- Line activity state codes (R35). -/
def Activity.code : Activity → Byte
  | .idle => 0 | .receiving => 1 | .transmitting => 2 | .awaitingReply => 3

/-- Mailbox state codes (R54). -/
def MailState.code : MailState → Byte
  | .vacant => 0 | .loaded => 1 | .queued => 2 | .sending => 3 | .held => 4 | .waitingSpace => 5
  | .done => 6 | .retiring => 7

/-- Outcome codes, 0 for none (R67, R70). -/
def outcomeCode : Option MailOutcome → Byte
  | none => 0 | some .accepted => 1 | some .sent => 2 | some .refused => 3 | some .expired => 4
  | some .aborted => 5 | some .withdrawn => 6

/-- Expiry cause codes, 0 for none (R67). -/
def causeCode : Option ExpiryCause → Byte
  | none => 0 | some .deferred => 1 | some .noReply => 2 | some .badReply => 3 | some .collision => 4

/-- Mailbox kind codes (R52). -/
def MailKind.code : MailKind → Byte
  | .remote => 0 | .localHandOff => 1 | .group => 2

/-- Channel state codes (R113). -/
def ChannelState.code : ChannelState → Byte
  | .closed => 0 | .opened => 1 | .halted => 2

/-- Entry kind codes (R122). -/
def EntryKind.code : EntryKind → Byte
  | .exact => 0 | .span => 1 | .masked => 2

/-- Overflow policy codes (R152). -/
def OverflowPolicy.code : OverflowPolicy → Byte
  | .dropNew => 0 | .displace => 1

/-- Origin codes (R149, R171). -/
def Origin.code : Origin → Byte
  | .lineAddressed _ _ => 0 | .lineGroup _ _ _ => 1 | .echo _ _ _ => 2 | .handOff _ _ => 3

/-- A number as one byte. -/
def byteOf (n : Nat) : Byte := BitVec.ofNat 8 n

/-- A flag as one byte. -/
def flagByte (b : Bool) : Byte := if b then 1 else 0

/-- An owner port, 0xFF for none (R113, R126). -/
def ownerByte : Option Port → Byte
  | none => 0xFF | some p => byteOf p.val

/-- A two-byte field, most significant byte first (00_scope.md, "Byte order"). -/
def bytesOf16 (v : BitVec 16) : List Byte := [v.extractLsb' 8 8, v.extractLsb' 0 8]

/-- A group id in two bytes. -/
def bytesOfGroup (g : GroupId) : List Byte := bytesOf16 (g.setWidth 16)

/-! ## Read data -/

/-- The twenty bytes of READ_LINE (R35). -/
def lineData (s : State) : List Byte :=
  [s.member.lineState.code, modeCode s.mode, (s.vote 0).code, (s.vote 1).code, (s.vote 2).code,
   s.member.config.nodeAddress.setWidth 8, byteOf s.member.config.bitRate.val,
   s.member.config.share.code, s.member.config.recovery.code, s.fault.state.code,
   byteOf s.fault.window.length, byteOf (s.fault.window.count .fail), byteOf s.fault.cleanRounds,
   s.line.activity.code, s.line.turn.setWidth 8, s.line.round]
  ++ bytesOf16 s.line.checkErrors ++ bytesOf16 s.line.turnSlips

/-- The record bytes of READ_MAILBOX: kind to payload length, zeros for a VACANT mailbox (R70, R170). -/
def recordData : Option MailRecord → List Byte
  | some r =>
    [r.kind.code, r.dest.setWidth 8, byteOf r.channel.val] ++ bytesOfGroup r.group
      ++ [r.key, r.retryLimit.setWidth 8, r.holdOffRounds, 0, byteOf r.payload.length]
  | none => [0, 0, 0, 0, 0, 0, 0, 0, 0, 0]

/-- The seventeen bytes of READ_MAILBOX (R70). -/
def mailboxData (m : Mailbox) : List Byte :=
  [m.state.code, outcomeCode m.outcome, causeCode m.cause, byteOf m.attempts, flagByte m.lateAbort,
   flagByte m.abortPending, m.holdOff] ++ recordData m.record

/-- The five bytes of READ_COMPLETION (R67). -/
def completionData (i : MailboxIndex) (m : Mailbox) : List Byte :=
  [byteOf i.val, outcomeCode m.outcome, causeCode m.cause, byteOf m.attempts, flagByte m.lateAbort]

/-- The two bytes of READ_CHANNEL (R113). -/
def channelData (c : Channel) : List Byte := [c.state.code, ownerByte c.owner]

/-- The seven bytes of READ_ENTRY (R126). -/
def entryData (e : Entry) : List Byte :=
  [ownerByte e.owner, flagByte e.enabled, e.kind.code] ++ bytesOfGroup e.first ++ bytesOfGroup e.second

/-- The fields of a record's origin in the order of R139: origin, source node, source port, channel,
group id, matched entry index; 0xFF for a field the origin does not carry (R149, R171). -/
def originData : Origin → List Byte
  | .lineAddressed n c => [0, n.setWidth 8, 0xFF, byteOf c.val, 0xFF, 0xFF, 0xFF]
  | .lineGroup n g e => [1, n.setWidth 8, 0xFF, 0xFF] ++ bytesOfGroup g ++ [byteOf e.val]
  | .echo p g e => [2, 0xFF, byteOf p.val, 0xFF] ++ bytesOfGroup g ++ [byteOf e.val]
  | .handOff p c => [3, 0xFF, byteOf p.val, byteOf c.val, 0xFF, 0xFF, 0xFF]

/-- The payload of a record: the first `length` bytes of its slot (R139). -/
def State.payloadOf (s : State) (r : QueueRecord) : List Byte :=
  (s.store.bytes[r.slot]).toList.take r.length

/-- The 10 + L bytes of PEEK and TAKE (R149, R171). -/
def headData (s : State) (r : QueueRecord) : List Byte :=
  originData r.origin ++ [r.arrival, byteOf r.lossesBefore, byteOf r.length] ++ s.payloadOf r

/-- The eight bytes of READ_QUEUE (R152). -/
def queueData (s : State) (p : Port) : List Byte :=
  let q := s.queue p
  [byteOf q.records.length, byteOf q.capacity, q.policy.code, byteOf q.pendingLosses, flagByte q.pin]
  ++ (match q.records.head? with
      | some r => [r.origin.code, byteOf r.length]
      | none => [0xFF, 0xFF])
  ++ [byteOf s.freeSlots.length]

end Sys2Proof.Machine
end

