-- ==== Sys2Proof/Machine/Resets.lean ====
section
/-! DEFINITION. Port reset and device reset, shared by the pins and RESET_PORT (R164 to R167). -/

namespace Sys2Proof.Machine

/-- R164: the port engine's own state at a port reset; the pin levels stay. -/
def Engine.portReset (e : Engine) : Engine :=
  { Engine.initial with csLow := e.csLow, prstLow := e.prstLow }

/-- R119: port `p` owns the channel. -/
def State.ownsChannel (s : State) (p : Port) (c : ChannelNo) : Bool := (s.channel c).owner == some p

/-- R103, R119: every channel of the port closes and loses its inbound entries. -/
def State.closeChannels (s : State) (p : Port) : State :=
  let s1 := s.forgetInbound (s.ownsChannel p)
  { s1 with channels := s1.channels.map (fun v => if v.owner == some p then .free else v) }

/-- R134: every entry of the port becomes free. -/
def State.freeEntries (s : State) (p : Port) : State :=
  { s with entries := s.entries.map (fun e => if e.owner == some p then .free else e) }

/-- R164: port reset of port `p` in one event: the engine first, then the blocks, then the one local pass,
which counts as a pass at a space event (R90). The votes are taken after the mailboxes, so that no
withdrawal reaches the port's own mailboxes (log 10). -/
def State.portReset (s : State) (p : Port) : State :=
  let s1 := s.putEngine p (s.engine p).portReset
  let u := (s1.resetMailboxes p).on (fun s => (s.closeChannels p).freeEntries p)
  let u := (u.andThen (fun s => s.emptyQueue p)).on (fun s => s.putOrder p .key)
  let u := u.andThen (fun s => s.applyVotes (s.member.votes.set p .none))
  u.state.localPass true

/-- R167: device reset. Every block takes its device-reset values; the levels of the port pins stay, and so
do the model's own queue and counter. -/
def State.deviceReset (s : State) : State :=
  { State.reset with
    engines := s.engines.map (·.portReset), inReset := true, draws := s.draws, pending := s.pending }

end Sys2Proof.Machine
end

