-- ==== Sys2Proof/Machine/Transactions.lean ====
section
/-! DEFINITION. The SPI transaction: begin, snapshot, release, and the MISO bytes (R155 to R158). -/

namespace Sys2Proof.Machine

/-- What every meaning answers. -/
abbrev Answer := Host.Outcome State Fault Refusal

/-- The level of CSn. -/
def State.setCs (s : State) (p : Port) (low : Bool) : State :=
  s.putEngine p { s.engine p with csLow := low }

/-- R155: a transaction begins at a falling edge of CSn, unless PRSTn (R164) or RESET (R167) is held low;
MISO bytes 0 and 1 are fixed. -/
def State.beginTransaction (s : State) (p : Port) : State :=
  let e := s.engine p
  if e.csLow then s
  else if e.prstLow || s.inReset then s.setCs p true
  else
    s.putEngine p { e with csLow := true,
                           txn := some { miso0 := e.lastResult.code, miso1 := e.flags.toByte,
                                         received := [], snapshot := none } }

/-- The transaction of a port ends: CSn is high, and the transaction pin is released (R146, R155). -/
def State.closeTransaction (s : State) (p : Port) : State :=
  (s.putEngine p { s.engine p with csLow := false, txn := none }).setTxnPin p false

/-- Byte 0 of the transaction is `code`, or has not been received yet and may be (R156). -/
def Transaction.mayCarry (t : Transaction) (code : Byte) : Bool := t.received.head?.all (· == code)

/-- A release of a transaction that is in progress is taken by `act`, which is given the snapshot, if
`fits` holds of it. With no transaction in progress (discarded by a reset, or never begun) the release
only takes CSn high (log 29). A release that does not fit does not arise (log 1). -/
def State.atRelease (s : State) (p : Port) (fits : Transaction → Bool)
    (act : Option Snapshot → State → State) : State :=
  match (s.engine p).txn with
  | none => s.setCs p false
  | some t => if fits t then act t.snapshot (s.closeTransaction p) else s

/-- R156: a transaction with the command code `code` is taken at release by `body`, whose result is reported. -/
def State.takeCode (s : State) (p : Port) (code : Byte) (body : State → State × Result) : State :=
  s.atRelease p (·.mayCarry code) (fun _ s => let r := body s; r.1.report p r.2)

/-- R156: a command that is not a read command is taken at release under its code. -/
def State.takeCommand (s : State) (p : Port) (c : Command) (body : State → State × Result) : State :=
  s.takeCode p c.code body

/-- R157: the result of a read command. Without a snapshot its argument byte did not complete. -/
def readResult (n : Option Snapshot) (dataBytes : Nat) : Result :=
  match n with
  | none => .truncated
  | some n =>
    match n.verdict with
    | .badArgument => .badArgument
    | .empty => .empty
    | .valid => if dataBytes < n.data.length then .truncated else .ok

/-- R157: the side effect of a read command, applied only to a complete transaction. -/
def applyEffect (n : Option Snapshot) (dataBytes : Nat) (effect : SideEffect → State → State) (s : State) :
    State :=
  match n with
  | some n => if readResult (some n) dataBytes = Result.ok then effect n.effect s else s
  | none => s

/-- R157: a read command is taken at release with its side effect `effect`, and its result is reported. -/
def State.takeRead (s : State) (p : Port) (cmd : ReadCommand) (dataBytes : Nat)
    (effect : SideEffect → State → State) : State :=
  s.atRelease p (·.mayCarry cmd.code)
    (fun n s => (applyEffect n dataBytes effect s).report p (readResult n dataBytes))

/-! ## Snapshots -/

/-- A snapshot whose argument is refused: zeros (R157). -/
def badSnapshot (cmd : ReadCommand) : Snapshot :=
  { cmd := cmd, verdict := .badArgument, data := [], effect := .none }

/-- A snapshot that finds nothing: `first` and zeros after it (R67, R149, R157). -/
def emptySnapshot (cmd : ReadCommand) (first : Byte) : Snapshot :=
  { cmd := cmd, verdict := .empty, data := [first], effect := .none }

/-- A snapshot with data to return. -/
def validSnapshot (cmd : ReadCommand) (data : List Byte) (effect : SideEffect) : Snapshot :=
  { cmd := cmd, verdict := .valid, data := data, effect := effect }

/-- R35, R36: READ_LINE. -/
def State.snapLine (s : State) (arg : Byte) : Snapshot :=
  if arg == 0 then validSnapshot .line (lineData s) .none
  else if arg == 1 then
    validSnapshot .line (lineData s) (.reduce s.line.checkErrors s.line.turnSlips)
  else badSnapshot .line

/-- R70: READ_MAILBOX. -/
def State.snapMailbox (s : State) (p : Port) (arg : Byte) : Snapshot :=
  match indexOfByte 4 arg with
  | some i => validSnapshot .mailbox (mailboxData (s.mailbox { port := p, index := i })) .none
  | none => badSnapshot .mailbox

/-- R67: READ_COMPLETION. -/
def State.snapCompletion (s : State) (p : Port) : Snapshot :=
  match s.completions p with
  | i :: _ =>
    validSnapshot .completion (completionData i (s.mailbox { port := p, index := i })) (.dropCompletion i)
  | [] => emptySnapshot .completion 0xFF

/-- R113: READ_CHANNEL. -/
def State.snapChannel (s : State) (arg : Byte) : Snapshot :=
  match indexOfByte 16 arg with
  | some c => validSnapshot .channel (channelData (s.channel c)) .none
  | none => badSnapshot .channel

/-- R126: READ_ENTRY. -/
def State.snapEntry (s : State) (arg : Byte) : Snapshot :=
  match indexOfByte 24 arg with
  | some i => validSnapshot .entry (entryData (s.entry i)) .none
  | none => badSnapshot .entry

/-- R149, R150: PEEK and TAKE. -/
def State.snapHead (s : State) (p : Port) (cmd : ReadCommand) : Snapshot :=
  match (s.queue p).records with
  | r :: _ => validSnapshot cmd (headData s r) .none
  | [] => emptySnapshot cmd 0xFF

/-- R157: the snapshot of a read command of port `p`. -/
def State.snapshotOf (s : State) (p : Port) (cmd : ReadCommand) (arg : Byte) : Snapshot :=
  match cmd with
  | .line => s.snapLine arg
  | .mailbox => s.snapMailbox p arg
  | .completion => s.snapCompletion p
  | .channel => s.snapChannel arg
  | .entry => s.snapEntry arg
  | .peek => s.snapHead p .peek
  | .take => s.snapHead p .take
  | .queue => validSnapshot .queue (queueData s p) .none

/-- R146: a PEEK or TAKE whose snapshot finds the queue non-empty holds the transaction pin. -/
def State.pinsAtSnapshot (s : State) (p : Port) (cmd : ReadCommand) : Bool :=
  match cmd with
  | .peek | .take => !(s.queue p).records.isEmpty
  | .line | .mailbox | .completion | .channel | .entry | .queue => false

/-- R155, R157: the argument byte of a read command completes in the transaction `t`: the bytes received are the command
code and the argument, and the snapshot is taken. -/
def State.takeSnapshot (s : State) (p : Port) (t : Transaction) (cmd : ReadCommand) (arg : Byte) : State :=
  let s1 := s.putEngine p
    { s.engine p with txn := some { t with received := [cmd.code, arg],
                                           snapshot := some (s.snapshotOf p cmd arg) } }
  if s.pinsAtSnapshot p cmd then s1.setTxnPin p true else s1

/-! ## What the client sees on MISO -/

/-- Byte `k` of MISO in a transaction: last result, attention flags, read data, zeros (R155, R156). -/
def Transaction.miso (t : Transaction) (k : Nat) : Byte :=
  match k with
  | 0 => t.miso0
  | 1 => t.miso1
  | k + 2 => (t.snapshot.map (fun n => (n.data[k]?).getD 0)).getD 0

/-- Byte `k` of MISO of a port; none for high impedance (R155, R164). -/
def State.miso (s : State) (p : Port) (k : Nat) : Option Byte := (s.engine p).txn.map (·.miso k)

end Sys2Proof.Machine
end

