-- ==== Sys2Proof/Machine/MailboxCommands.lean ====
section
/-! DEFINITION. Mailbox commands: LOAD, REQUEST, ABORT, CLEAR, READ_MAILBOX, READ_COMPLETION (04). -/

namespace Sys2Proof.Machine

/-- R55: the mailbox takes a record and leaves the completion list. -/
def State.load (s : State) (r : Ref) (rec : MailRecord) : State :=
  (s.putMailbox r { Mailbox.vacant with record := some rec, state := .loaded }).dropCompletion r

/-- R55: a mailbox in one of these states refuses LOAD. -/
def MailState.refusesLoad : MailState → Bool
  | .queued | .sending | .held | .waitingSpace | .retiring => true
  | .vacant | .loaded | .done => false

/-- LOAD (R55). -/
def loadBody (p : Port) (bytes : List Byte) (s : State) : State × Result :=
  match bytes with
  | index :: kind :: dest :: chan :: gHi :: gLo :: key :: retry :: hold :: _spare :: length :: payload =>
    if length.toNat ≤ 64 && payload.length < length.toNat then (s, .truncated)
    else
      match indexOfByte 4 index with
      | none => (s, .badArgument)
      | some i =>
        let r : Ref := { port := p, index := i }
        if (s.mailbox r).state.refusesLoad then (s, .busy)
        else
          match mailRecordOf kind dest chan gHi gLo key retry hold length payload with
          | some rec => (s.load r rec, .ok)
          | none => (s, .badArgument)
  | _ => (s, .truncated)

/-- LOAD (R55), taken at release. -/
def execLoad (p : Port) (bytes : List Byte) (s : State) : Answer :=
  .next (s.takeCommand p .load (loadBody p bytes))

/-- R56: the mailbox is requested: progress fields, completion list, hold-off, QUEUED, pending list. -/
def State.enqueue (s : State) (r : Ref) (rec : MailRecord) : State :=
  let m := s.mailbox r
  let s1 := s.putMailbox r
    { m with state := .queued, outcome := none, cause := none, attempts := 0, lateAbort := false,
             abortPending := false, holdOff := rec.holdOffRounds }
  (s1.dropCompletion r).putRefs (s.sched.refs ++ [r])

/-- R56, R84: an accepted REQUEST of a LOCAL mailbox makes a local pass. -/
def State.requestMailbox (s : State) (r : Ref) (rec : MailRecord) : State :=
  if rec.kind == .localHandOff then (s.enqueue r rec).localPass false else s.enqueue r rec

/-- REQUEST on the mailbox `r` (R56, checks 3 to 6). -/
def requestChecks (r : Ref) (s : State) : State × Result :=
  match (s.mailbox r).state, (s.mailbox r).record with
  | .loaded, some rec | .done, some rec =>
    if rec.kind != .localHandOff && s.member.lineState == .offline then (s, .offline)
    else if rec.kind == .remote && rec.dest == s.member.config.nodeAddress then (s, .badArgument)
    else (s.requestMailbox r rec, .ok)
  | _, _ => (s, .busy)

/-- REQUEST (R56). -/
def requestBody (p : Port) (bytes : List Byte) (s : State) : State × Result :=
  match bytes with
  | index :: _ =>
    match indexOfByte 4 index with
    | some i => requestChecks { port := p, index := i } s
    | none => (s, .badArgument)
  | [] => (s, .truncated)

/-- REQUEST (R56), taken at release. -/
def execRequest (p : Port) (bytes : List Byte) (s : State) : Answer :=
  .next (s.takeCommand p .request (requestBody p bytes))

/-- ABORT on the mailbox `r` (R63, checks 3 to 5). -/
def abortChecks (r : Ref) (s : State) : State × Result :=
  match (s.mailbox r).state with
  | .queued | .held | .waitingSpace => ((s.completeUpd r .aborted none).finish, .ok)
  | .sending => (s.putMailbox r { s.mailbox r with abortPending := true }, .ok)
  | .vacant | .loaded | .done | .retiring => (s, .notPending)

/-- ABORT (R63). -/
def abortBody (p : Port) (bytes : List Byte) (s : State) : State × Result :=
  match bytes with
  | index :: _ =>
    match indexOfByte 4 index with
    | some i => abortChecks { port := p, index := i } s
    | none => (s, .badArgument)
  | [] => (s, .truncated)

/-- ABORT (R63), taken at release. -/
def execAbort (p : Port) (bytes : List Byte) (s : State) : Answer :=
  .next (s.takeCommand p .abort (abortBody p bytes))

/-- CLEAR on the mailbox `r` (R69, checks 3 to 5). -/
def clearChecks (r : Ref) (s : State) : State × Result :=
  match (s.mailbox r).state with
  | .loaded | .done => ((s.putMailbox r .vacant).dropCompletion r, .ok)
  | .vacant => (s, .ok)
  | .queued | .sending | .held | .waitingSpace | .retiring => (s, .busy)

/-- CLEAR (R69). -/
def clearBody (p : Port) (bytes : List Byte) (s : State) : State × Result :=
  match bytes with
  | index :: _ =>
    match indexOfByte 4 index with
    | some i => clearChecks { port := p, index := i } s
    | none => (s, .badArgument)
  | [] => (s, .truncated)

/-- CLEAR (R69), taken at release. -/
def execClear (p : Port) (bytes : List Byte) (s : State) : Answer :=
  .next (s.takeCommand p .clear (clearBody p bytes))

/-- A read command without side effect (R157). -/
def noEffect (_e : SideEffect) (s : State) : State := s

/-- READ_MAILBOX (R70), taken at release. -/
def execReadMailbox (p : Port) (dataBytes : Nat) (s : State) : Answer :=
  .next (s.takeRead p .mailbox dataBytes noEffect)

/-- R67: the entry reported leaves the completion list. -/
def dropReported (p : Port) (e : SideEffect) (s : State) : State :=
  match e with
  | .dropCompletion i => s.dropCompletion { port := p, index := i }
  | .none | .reduce _ _ => s

/-- READ_COMPLETION (R67), taken at release. -/
def execReadCompletion (p : Port) (dataBytes : Nat) (s : State) : Answer :=
  .next (s.takeRead p .completion dataBytes (dropReported p))

end Sys2Proof.Machine
end

