-- ==== Sys2Proof/Machine/ChannelCommands.lean ====
section
/-! DEFINITION. Channel commands: CLAIM, RELEASE_CHANNEL, HALT, OPEN, READ_CHANNEL (07). -/

namespace Sys2Proof.Machine

/-- CLAIM on channel `c` with initial state `st` (R109). -/
def claimChecks (p : Port) (c : ChannelNo) (st : ChannelState) (s : State) : State × Result :=
  match (s.channel c).owner with
  | some o => if o == p then (s, .ok) else (s, .ownedElsewhere)
  | none => (s.putChannel c { owner := some p, state := st }, .ok)

/-- CLAIM (R108, R109). -/
def claimBody (p : Port) (bytes : List Byte) (s : State) : State × Result :=
  match bytes with
  | chan :: initial :: _ =>
    match indexOfByte 16 chan, ChannelState.ofClaimByte initial with
    | some c, some st => claimChecks p c st s
    | _, _ => (s, .badArgument)
  | _ => (s, .truncated)

/-- CLAIM (R109), taken at release. -/
def execClaim (p : Port) (bytes : List Byte) (s : State) : Answer :=
  .next (s.takeCommand p .claim (claimBody p bytes))

/-- A channel command that only the owner may give (R108): `act` on the channel that the argument
names. -/
def ownerCommand (p : Port) (bytes : List Byte) (act : ChannelNo → State → State) (s : State) :
    State × Result :=
  match bytes with
  | chan :: _ =>
    match indexOfByte 16 chan with
    | some c => if s.ownsChannel p c then (act c s, .ok) else (s, .notOwner)
    | none => (s, .badArgument)
  | [] => (s, .truncated)

/-- R111: the channel loses its owner, closes, and loses its inbound entries. -/
def State.releaseChannel (c : ChannelNo) (s : State) : State :=
  (s.putChannel c .free).forgetInbound (· == c)

/-- RELEASE_CHANNEL (R111), taken at release. -/
def execReleaseChannel (p : Port) (bytes : List Byte) (s : State) : Answer :=
  .next (s.takeCommand p .releaseChannel (ownerCommand p bytes State.releaseChannel))

/-- R112: the state of a channel changes, its owner stays. -/
def State.setChannelState (st : ChannelState) (c : ChannelNo) (s : State) : State :=
  s.putChannel c { s.channel c with state := st }

/-- HALT (R112), taken at release. -/
def execHalt (p : Port) (bytes : List Byte) (s : State) : Answer :=
  .next (s.takeCommand p .halt (ownerCommand p bytes (State.setChannelState .halted)))

/-- OPEN (R112), taken at release. -/
def execOpenChannel (p : Port) (bytes : List Byte) (s : State) : Answer :=
  .next (s.takeCommand p .openChannel (ownerCommand p bytes (State.setChannelState .opened)))

/-- READ_CHANNEL (R113), taken at release. -/
def execReadChannel (p : Port) (dataBytes : Nat) (s : State) : Answer :=
  .next (s.takeRead p .channel dataBytes noEffect)

end Sys2Proof.Machine
end

