-- ==== Sys2Proof/Machine/EntryCommands.lean ====
section
/-! DEFINITION. Entry commands: SET_ENTRY, FREE_ENTRY, READ_ENTRY (08). -/

namespace Sys2Proof.Machine

/-- SET_ENTRY on entry `i` with the fields `e` (R123, checks 5 and 6). -/
def setEntryChecks (p : Port) (i : EntryNo) (e : Entry) (s : State) : State × Result :=
  match (s.entry i).owner with
  | some o => if o == p then (s.putEntry i e, .ok) else (s, .ownedElsewhere)
  | none => (s.putEntry i e, .ok)

/-- SET_ENTRY (R123). -/
def setEntryBody (p : Port) (bytes : List Byte) (s : State) : State × Result :=
  match bytes with
  | index :: enabled :: kind :: fHi :: fLo :: sHi :: sLo :: _ =>
    match indexOfByte 24 index, entryOf p enabled kind fHi fLo sHi sLo with
    | some i, some e => setEntryChecks p i e s
    | _, _ => (s, .badArgument)
  | _ => (s, .truncated)

/-- SET_ENTRY (R123), taken at release. -/
def execSetEntry (p : Port) (bytes : List Byte) (s : State) : Answer :=
  .next (s.takeCommand p .setEntry (setEntryBody p bytes))

/-- FREE_ENTRY (R125). -/
def freeEntryBody (p : Port) (bytes : List Byte) (s : State) : State × Result :=
  match bytes with
  | index :: _ =>
    match indexOfByte 24 index with
    | some i => if (s.entry i).owner == some p then (s.putEntry i .free, .ok) else (s, .notOwner)
    | none => (s, .badArgument)
  | [] => (s, .truncated)

/-- FREE_ENTRY (R125), taken at release. -/
def execFreeEntry (p : Port) (bytes : List Byte) (s : State) : Answer :=
  .next (s.takeCommand p .freeEntry (freeEntryBody p bytes))

/-- READ_ENTRY (R126), taken at release. -/
def execReadEntry (p : Port) (dataBytes : Nat) (s : State) : Answer :=
  .next (s.takeRead p .entry dataBytes noEffect)

end Sys2Proof.Machine
end

