-- ==== Sys2Proof/Machine/LineCommands.lean ====
section
/-! DEFINITION. Commands on the node's line standing: VOTE, CONFIGURE, READ_LINE, RESUME (02, 03). -/

namespace Sys2Proof.Machine

/-- VOTE (R23): a new value takes effect with the line state and mode that follow from it. -/
def voteBody (p : Port) (bytes : List Byte) (s : State) : State × Result :=
  match bytes with
  | arg :: _ =>
    match Vote.ofByte arg with
    | some v =>
      if v == s.vote p then (s, .ok)
      else ((s.applyVotes (s.member.votes.set p v)).finish, .ok)
    | none => (s, .badArgument)
  | [] => (s, .truncated)

/-- VOTE (R23), taken at release. -/
def execVote (p : Port) (bytes : List Byte) (s : State) : Answer :=
  .next (s.takeCommand p .vote (voteBody p bytes))

/-- R33, R34, R104: the record takes new values; a change of address or rate empties both sequence
tables. -/
def State.configure (s : State) (c : LineConfig) : State :=
  let old := s.member.config
  let s1 := { s with member := { s.member with config := c } }
  if c.nodeAddress == old.nodeAddress && c.bitRate == old.bitRate then s1
  else s1.putSeq { outbound := [], inbound := [] }

/-- CONFIGURE (R33). -/
def configureBody (bytes : List Byte) (s : State) : State × Result :=
  match bytes with
  | addr :: rate :: share :: recovery :: _ =>
    if s.member.lineState != .offline then (s, .busy)
    else
      match lineConfigOf addr rate share recovery with
      | some c => (s.configure c, .ok)
      | none => (s, .badArgument)
  | _ => (s, .truncated)

/-- CONFIGURE (R33), taken at release. -/
def execConfigure (p : Port) (bytes : List Byte) (s : State) : Answer :=
  .next (s.takeCommand p .configure (configureBody bytes))

/-- A counter reduced by the value reported, to 0 at the least (R20, R36). -/
def reduceCounter (c reported : BitVec 16) : BitVec 16 := if c < reported then 0 else c - reported

/-- R20, R36: the side effect of READ_LINE with argument 1. -/
def reduceCounters (e : SideEffect) (s : State) : State :=
  match e with
  | .reduce c t =>
    s.putLine { s.line with checkErrors := reduceCounter s.line.checkErrors c,
                            turnSlips := reduceCounter s.line.turnSlips t }
  | .none | .dropCompletion _ => s

/-- READ_LINE (R36), taken at release. -/
def execReadLine (p : Port) (dataBytes : Nat) (s : State) : Answer :=
  .next (s.takeRead p .line dataBytes reduceCounters)

/-- RESUME (R48). -/
def resumeBody (bytes : List Byte) (s : State) : State × Result :=
  match bytes with
  | _ :: _ =>
    match s.fault.state with
    | .readyToResume =>
      (s.confine { s.fault with window := [], state := .engaged, cleanRounds := 0 }, .ok)
    | .silenced => (s, .notReady)
    | .engaged | .guarded => (s, .notPending)
  | [] => (s, .truncated)

/-- RESUME (R48), taken at release. -/
def execResume (p : Port) (bytes : List Byte) (s : State) : Answer :=
  .next (s.takeCommand p .resume (resumeBody bytes))

end Sys2Proof.Machine
end

