-- ==== Sys2Proof/Machine/PinEvents.lean ====
section
/-! DEFINITION. Reset pins: DEVICE_RESET, DEVICE_RESET_ENDS, PORT_RESET, PRST_RELEASE (R164, R167). -/

namespace Sys2Proof.Machine

/-- DEVICE_RESET (R167). -/
def execDeviceReset (s : State) : Answer := .next s.deviceReset

/-- DEVICE_RESET_ENDS (R167): the part runs from its reset values. -/
def execDeviceResetEnds (s : State) : Answer := .next { s with inReset := false }

/-- The level of PRSTn. -/
def State.setPrst (s : State) (p : Port) (low : Bool) : State :=
  s.putEngine p { s.engine p with prstLow := low }

/-- PORT_RESET (R164): a falling edge of PRSTn. A pin that is low has none (log 1). -/
def execPortReset (p : Port) (s : State) : Answer :=
  if (s.engine p).prstLow then .next s else .next ((s.setPrst p true).portReset p)

/-- PRST_RELEASE (R164): PRSTn goes high; nothing further happens. -/
def execPrstRelease (p : Port) (s : State) : Answer := .next (s.setPrst p false)

end Sys2Proof.Machine
end

