-- ==== Sys2Proof/Machine/PortCommands.lean ====
section
/-! DEFINITION. Transactions and the commands of the port engine (10_client_ports.md): TRANSACTION_BEGIN,
READ_SNAPSHOT, TRANSACTION_WITHOUT_COMMAND, BAD_COMMAND, SET_PORT, ACKNOWLEDGE, RESET_PORT, NOP. -/

namespace Sys2Proof.Machine

/-- TRANSACTION_BEGIN (R155). -/
def execTransactionBegin (p : Port) (s : State) : Answer := .next (s.beginTransaction p)

/-- READ_SNAPSHOT (R157): the first snapshot of the transaction in progress; another does not arise
(log 1). -/
def execReadSnapshot (p : Port) (cmd : ReadCommand) (arg : Byte) (s : State) : Answer :=
  match (s.engine p).txn with
  | some t => if t.snapshot.isNone then .next (s.takeSnapshot p t cmd arg) else .next s
  | none => .next s

/-- TRANSACTION_WITHOUT_COMMAND (R155): the transaction is discarded; last result, flags and every other
block stay. -/
def execTransactionWithoutCommand (p : Port) (s : State) : Answer :=
  .next (s.atRelease p (·.received.isEmpty) (fun _ s => s))

/-- BAD_COMMAND (R156): a code that names no command gives BAD_COMMAND, whatever the length. A code that
names one is not this row (log 1). -/
def execBadCommand (p : Port) (code : Byte) (_bytes : List Byte) (s : State) : Answer :=
  if namesCommand code then .next s else .next (s.takeCode p code (fun s => (s, .badCommand)))

/-- R162: the effect of SET_PORT at its port. -/
def State.setPort (s : State) (p : Port) (mask : Attention) (o : TransmitOrder) : State :=
  (s.putEngine p { s.engine p with mask := mask }).putOrder p o

/-- SET_PORT (R162). -/
def setPortBody (p : Port) (bytes : List Byte) (s : State) : State × Result :=
  match bytes with
  | mask :: order :: _ =>
    if attentionByteValid mask then
      match TransmitOrder.ofByte order with
      | some o => (s.setPort p (Attention.ofByte mask) o, .ok)
      | none => (s, .badArgument)
    else (s, .badArgument)
  | _ => (s, .truncated)

/-- SET_PORT (R162), taken at release. -/
def execSetPort (p : Port) (bytes : List Byte) (s : State) : Answer :=
  .next (s.takeCommand p .setPort (setPortBody p bytes))

/-- ACKNOWLEDGE (R163). -/
def acknowledgeBody (p : Port) (bytes : List Byte) (s : State) : State × Result :=
  match bytes with
  | named :: _ =>
    if attentionByteValid named then (s.onFlags p (·.acknowledge (Attention.ofByte named)), .ok)
    else (s, .badArgument)
  | [] => (s, .truncated)

/-- ACKNOWLEDGE (R163), taken at release. -/
def execAcknowledge (p : Port) (bytes : List Byte) (s : State) : Answer :=
  .next (s.takeCommand p .acknowledge (acknowledgeBody p bytes))

/-- RESET_PORT (R165): a complete one is a port reset of its port; its result is OK. -/
def resetPortBody (p : Port) (bytes : List Byte) (s : State) : State × Result :=
  match bytes with
  | _ :: _ => (s.portReset p, .ok)
  | [] => (s, .truncated)

/-- RESET_PORT (R165), taken at release. -/
def execResetPort (p : Port) (bytes : List Byte) (s : State) : Answer :=
  .next (s.takeCommand p .resetPort (resetPortBody p bytes))

/-- NOP (R158). -/
def nopBody (bytes : List Byte) (s : State) : State × Result :=
  match bytes with
  | _ :: _ => (s, .ok)
  | [] => (s, .truncated)

/-- NOP (R158), taken at release. -/
def execNop (p : Port) (bytes : List Byte) (s : State) : Answer :=
  .next (s.takeCommand p .nop (nopBody bytes))

end Sys2Proof.Machine
end

