-- ==== Sys2Proof/Machine/LineEvents.lean ====
section
/-! DEFINITION. The rows that the line raises (01_the_turn_line.md). An event that cannot arise in the
present state changes nothing (log 1). -/

namespace Sys2Proof.Machine

/-- TURN_BEGINS (R6, R7, R8): while turn tracking runs and the line is idle. A first turn that is due after
sync is turn 0, without a round boundary (R12). -/
def execTurnBegins (s : State) : Answer :=
  if s.tracking && s.line.activity == .idle then
    .next (if s.line.firstTurnDue then s.firstTurnBegins else s.beginTurnIdle)
  else .next s

/-- The activity begins: RECEIVING, and the sync idle count returns to 0 (R12, R19). -/
def State.beginReception (s : State) (chars : List RxChar) : State :=
  s.putLine { s.line with
    activity := .receiving,
    syncIdle := if s.member.lineState == .syncing then 0 else s.line.syncIdle,
    reception := some { phase := .opening, chars := chars,
                        activeAtStart := s.member.lineState == .active } }

/-- R6, R12: the turn that begins at the first start bit of an activity, if one does: a first turn that is due
after sync, or the next turn inside an interframe space. Own turn begins is not raised (R8). -/
def State.turnAtActivity (s : State) : State :=
  if s.tracking && s.line.firstTurnDue then s.startFirstTurn
  else if s.tracking && s.line.betweenTurns then s.beginTurnBusy
  else s

/-- ACTIVITY_BEGINS (R1, R6, R11, R26): a start bit on the idle line, while the line is sampled and not
treated as busy. -/
def execActivityBegins (s : State) : Answer :=
  if s.sampling && s.line.activity == .idle && !s.line.busyUntilIdle then
    .next (s.turnAtActivity.beginReception [])
  else .next s

/-- TURN_CHECK (R5 check 1, R9, R10, R17): header byte 0 of a received activity completes. -/
def execTurnCheck (chars : List RxChar) (s : State) : Answer :=
  match s.line.activity, s.line.reception with
  | .receiving, some rx =>
    match rx.phase, rx.chars ++ chars with
    | .opening, [pre, h0] => .next (s.headerZero pre h0)
    | _, _ => .next s
  | _, _ => .next s

/-- A reception end may be raised in this phase for an activity classified so: frame start has been raised
exactly if the classification says so. -/
def RxPhase.endsAs (ph : RxPhase) (v : Classified) : Bool :=
  match ph with
  | .frame => v.frameStart
  | .opening | .disturbance => !v.frameStart
  | .foreign | .ended | .abandoned => false

/-- RECEPTION_END (R5, R18). -/
def execReceptionEnd (rest : List RxChar) (s : State) : Answer :=
  match s.line.activity, s.line.reception with
  | .receiving, some rx =>
    let v := classify (rx.chars ++ rest)
    if rx.phase.endsAs v then .next (s.receptionEnd rx v) else .next s
  | _, _ => .next s

/-- R14, step 4 and after: the activity is received on. The turn check and any frame start happen now if the
collision falls in header byte 0; later than that R10 takes the activity. -/
def State.receiveAfterCollision (s : State) (f : OwnFrame) (index : Nat) (readback : RxChar) : State :=
  let clean := (f.chars.take index).map (fun b => ({ value := b, framingError := false } : RxChar))
  let chars := clean ++ [readback]
  let s1 := s.putLine { s.line with
    activity := .receiving,
    reception := some { phase := .opening, chars := chars,
                        activeAtStart := s.member.lineState == .active } }
  match chars with
  | [_] => s1
  | [pre, h0] => s1.headerZero pre h0
  | _ => s1.foreignUse chars

/-- COLLISION (R14): a readback mismatch of a character of the own frame. When the transmission end takes the
node OFFLINE, nothing is received (log 9). -/
def execCollision (index : Nat) (readback : RxChar) (s : State) : Answer :=
  match s.line.activity, s.line.own with
  | .transmitting, some f =>
    match f.chars[index]? with
    | some sent =>
      if readback.framingError || readback.value != sent then
        let s1 := s.transmissionEnd f .collision
        .next (if s1.sampling then s1.receiveAfterCollision f index readback else s1)
      else .next s
    | none => .next s
  | _, _ => .next s

/-- CHECK_WORD_READ_BACK (R15): the last check byte of the own frame is read back clean. -/
def execCheckWordReadBack (s : State) : Answer :=
  match s.line.activity, s.line.own with
  | .transmitting, some f =>
    match f.body with
    | .group _ => .next (s.transmissionEnd f .sentClean).endLineTime
    | .addressed _ _ _ _ =>
      .next (s.putLine { s.line with activity := .awaitingReply, den := false, txd := [] })
  | _, _ => .next s

/-- TRANSMISSION_END (R4, R15): the reply window of the own ADDRESSED frame has brought `reply`. -/
def execTransmissionEnd (reply : Option RxChar) (s : State) : Answer :=
  match s.line.activity, s.line.own with
  | .awaitingReply, some f => .next (s.transmissionEnd f (classifyReply reply)).endLineTime
  | _, _ => .next s

/-- REPLY_BYTE_START (R16): DEN goes high and the chosen reply byte is sent. -/
def execReplyByteStart (s : State) : Answer :=
  match s.line.activity, s.line.reply with
  | .receiving, some c =>
    .next (s.putLine { s.line with activity := .transmitting, reply := none, den := true, txd := [c.byte] })
  | _, _ => .next s

/-- REPLY_BYTE_END (R16): DEN goes low; RECEIVING until the line time ends (R19). -/
def execReplyByteEnd (s : State) : Answer :=
  if s.line.activity == .transmitting && !s.inFlight then
    .next (s.putLine { s.line with activity := .receiving, den := false, txd := [] })
  else .next s

/-- Whether the line time of the activity may end now: its reception end has been raised, or it is only
followed (R10, R18). -/
def RxPhase.mayEnd : RxPhase → Bool
  | .ended | .foreign | .abandoned => true
  | .opening | .disturbance | .frame => false

/-- LINE_TIME_END (R4, R19): with no reply of the N3 to send. -/
def execLineTimeEnd (s : State) : Answer :=
  match s.line.activity, s.line.reception, s.line.reply with
  | .receiving, some rx, none => if rx.phase.mayEnd then .next s.endLineTime else .next s
  | _, _, _ => .next s

/-- R12, R27: the sync idle count reaches 1000: turn counter 31 and sync established. -/
def State.syncByIdle (s : State) : State :=
  (s.putLine { s.line with
    turn := 31, syncIdle := 1000, busyUntilIdle := false, firstTurnDue := true }).syncEstablished

/-- The answer has the node OFFLINE. -/
def endsOffline (a : Answer) : Bool :=
  match a with
  | .next t => t.member.lineState == .offline
  | .fault _ | .refused _ => false

/-- R27, R28: the command `c` withdraws the last vote of `s`, which goes OFFLINE. -/
def State.withdrawnBy (s : State) (c : Instr) : Bool :=
  match c with
  | .vote p bytes => endsOffline (execVote p bytes s)
  | .portReset p => endsOffline (execPortReset p s)
  | .resetPort p bytes => endsOffline (execResetPort p bytes s)
  | _ => false

/-- R27: a withdrawal of the last vote falls together with sync established: it is the command that waits next
(log 27). -/
def State.withdrawalWaits (s : State) : Bool :=
  match s.pending with
  | c :: _ => s.withdrawnBy c
  | [] => false

/-- SYNC_IDLE_COUNT (R12, R27): in SYNCING with the line idle. Sync is established and the first turn begins at
once; a withdrawal that falls together with sync established is taken before the first turn. -/
def execSyncIdleCount (s : State) : Answer :=
  if s.member.lineState == .syncing && s.line.activity == .idle then
    let s1 := s.syncByIdle
    .next (if s1.withdrawalWaits then s1 else s1.firstTurnBegins)
  else .next s

/-- SYNC_ENTRY_IDLE_SEEN (R26): level changes are taken as start bits from now on; these 10 bit times count
towards the sync idle count (log 15). -/
def execSyncEntryIdleSeen (s : State) : Answer :=
  if s.member.lineState == .syncing && s.line.busyUntilIdle then
    .next (s.putLine { s.line with busyUntilIdle := false, syncIdle := 10 })
  else .next s

end Sys2Proof.Machine
end

