-- ==== Sys2Proof/Machine/QueueCommands.lean ====
section
/-! DEFINITION. Queue commands: SET_QUEUE, PEEK, TAKE, RELEASE, READ_QUEUE (09). -/

namespace Sys2Proof.Machine

/-- R148: both settings take new values. -/
def State.setQueue (s : State) (p : Port) (capacity : Nat) (policy : OverflowPolicy) : State :=
  s.putQueue p { s.queue p with capacity := capacity, policy := policy }

/-- SET_QUEUE (R148): a capacity above the present one is a space event. -/
def setQueueBody (p : Port) (bytes : List Byte) (s : State) : State × Result :=
  match bytes with
  | capacity :: policy :: _ =>
    match OverflowPolicy.ofByte policy with
    | some o =>
      if capacity.toNat = 0 ∨ 16 < capacity.toNat then (s, .badArgument)
      else if capacity.toNat < (s.queue p).records.length then (s, .busy)
      else
        let s1 := s.setQueue p capacity.toNat o
        (if (s.queue p).capacity < capacity.toNat then s1.localPass true else s1, .ok)
    | none => (s, .badArgument)
  | _ => (s, .truncated)

/-- SET_QUEUE (R148), taken at release. -/
def execSetQueue (p : Port) (bytes : List Byte) (s : State) : Answer :=
  .next (s.takeCommand p .setQueue (setQueueBody p bytes))

/-- R149: a complete PEEK sets the persistent pin on the head. -/
def pinHead (p : Port) (_e : SideEffect) (s : State) : State :=
  if (s.queue p).records.isEmpty then s else s.putQueue p { s.queue p with pin := true }

/-- PEEK (R149), taken at release. -/
def execPeek (p : Port) (dataBytes : Nat) (s : State) : Answer :=
  .next (s.takeRead p .peek dataBytes (pinHead p))

/-- R150: a complete TAKE removes the head; then the local pass of its space events. -/
def takeHead (p : Port) (_e : SideEffect) (s : State) : State := (s.removeHead p).finish

/-- TAKE (R150), taken at release. -/
def execTake (p : Port) (dataBytes : Nat) (s : State) : Answer :=
  .next (s.takeRead p .take dataBytes (takeHead p))

/-- RELEASE (R151). -/
def releaseBody (p : Port) (bytes : List Byte) (s : State) : State × Result :=
  match bytes with
  | _ :: _ =>
    if (s.queue p).records.isEmpty then (s, .empty) else ((s.removeHead p).finish, .ok)
  | [] => (s, .truncated)

/-- RELEASE (R151), taken at release. -/
def execRelease (p : Port) (bytes : List Byte) (s : State) : Answer :=
  .next (s.takeCommand p .release (releaseBody p bytes))

/-- READ_QUEUE (R152), taken at release. -/
def execReadQueue (p : Port) (dataBytes : Nat) (s : State) : Answer :=
  .next (s.takeRead p .queue dataBytes noEffect)

end Sys2Proof.Machine
end

