-- ==== Sys2Proof/Machine/Dispatch.lean ====
section
/-! DEFINITION. One arm per command. -/

namespace Sys2Proof.Machine

def exec (i : Instr) (s : State) : Host.Outcome State Fault Refusal :=
  match i with
  | .deviceReset => Sys2Proof.Machine.execDeviceReset s
  | .portReset p => Sys2Proof.Machine.execPortReset p s
  | .transactionBegin p => Sys2Proof.Machine.execTransactionBegin p s
  | .readSnapshot p cmd arg => Sys2Proof.Machine.execReadSnapshot p cmd arg s
  | .transactionWithoutCommand p => Sys2Proof.Machine.execTransactionWithoutCommand p s
  | .badCommand p code bytes => Sys2Proof.Machine.execBadCommand p code bytes s
  | .vote p bytes => Sys2Proof.Machine.execVote p bytes s
  | .configure p bytes => Sys2Proof.Machine.execConfigure p bytes s
  | .readLine p n => Sys2Proof.Machine.execReadLine p n s
  | .resume p bytes => Sys2Proof.Machine.execResume p bytes s
  | .load p bytes => Sys2Proof.Machine.execLoad p bytes s
  | .request p bytes => Sys2Proof.Machine.execRequest p bytes s
  | .abort p bytes => Sys2Proof.Machine.execAbort p bytes s
  | .clear p bytes => Sys2Proof.Machine.execClear p bytes s
  | .readMailbox p n => Sys2Proof.Machine.execReadMailbox p n s
  | .readCompletion p n => Sys2Proof.Machine.execReadCompletion p n s
  | .claim p bytes => Sys2Proof.Machine.execClaim p bytes s
  | .releaseChannel p bytes => Sys2Proof.Machine.execReleaseChannel p bytes s
  | .halt p bytes => Sys2Proof.Machine.execHalt p bytes s
  | .openChannel p bytes => Sys2Proof.Machine.execOpenChannel p bytes s
  | .readChannel p n => Sys2Proof.Machine.execReadChannel p n s
  | .setEntry p bytes => Sys2Proof.Machine.execSetEntry p bytes s
  | .freeEntry p bytes => Sys2Proof.Machine.execFreeEntry p bytes s
  | .readEntry p n => Sys2Proof.Machine.execReadEntry p n s
  | .setQueue p bytes => Sys2Proof.Machine.execSetQueue p bytes s
  | .peek p n => Sys2Proof.Machine.execPeek p n s
  | .take p n => Sys2Proof.Machine.execTake p n s
  | .release p bytes => Sys2Proof.Machine.execRelease p bytes s
  | .readQueue p n => Sys2Proof.Machine.execReadQueue p n s
  | .setPort p bytes => Sys2Proof.Machine.execSetPort p bytes s
  | .acknowledge p bytes => Sys2Proof.Machine.execAcknowledge p bytes s
  | .resetPort p bytes => Sys2Proof.Machine.execResetPort p bytes s
  | .nop p bytes => Sys2Proof.Machine.execNop p bytes s
  | .turnBegins => Sys2Proof.Machine.execTurnBegins s
  | .activityBegins => Sys2Proof.Machine.execActivityBegins s
  | .turnCheck chars => Sys2Proof.Machine.execTurnCheck chars s
  | .receptionEnd rest => Sys2Proof.Machine.execReceptionEnd rest s
  | .collision k c => Sys2Proof.Machine.execCollision k c s
  | .checkWordReadBack => Sys2Proof.Machine.execCheckWordReadBack s
  | .transmissionEnd reply => Sys2Proof.Machine.execTransmissionEnd reply s
  | .replyByteStart => Sys2Proof.Machine.execReplyByteStart s
  | .replyByteEnd => Sys2Proof.Machine.execReplyByteEnd s
  | .lineTimeEnd => Sys2Proof.Machine.execLineTimeEnd s
  | .syncIdleCount => Sys2Proof.Machine.execSyncIdleCount s
  | .syncEntryIdleSeen => Sys2Proof.Machine.execSyncEntryIdleSeen s
  | .prstRelease p => Sys2Proof.Machine.execPrstRelease p s
  | .deviceResetEnds => Sys2Proof.Machine.execDeviceResetEnds s

end Sys2Proof.Machine
end

