-- ==== Sys2Proof/WellFormed.lean ====
section
/-! DEFINITION. The commands whose operands can stand in an event of their row. -/

namespace Sys2Proof

/-- A frame has at most 71 characters: preamble, 4 header bytes, 64 payload bytes, 2 check bytes (R2). -/
def maxFrameChars : Nat := 71

/-- The checks that an operand must pass to describe an event of its row:
BAD_COMMAND names no command (R156); TURN_CHECK brings header byte 0, after at most the preamble (R9);
RECEPTION_END brings no more characters than a frame has (R2, R5); COLLISION falls in a character of a
frame (R14). -/
def Instr.wellFormed : Instr → Bool
  | .badCommand _ code _ => !namesCommand code
  | .turnCheck chars => 1 ≤ chars.length && chars.length ≤ 2
  | .receptionEnd rest => rest.length ≤ maxFrameChars
  | .collision index _ => index < maxFrameChars
  | .deviceReset | .portReset _ | .transactionBegin _ | .readSnapshot _ _ _
  | .transactionWithoutCommand _ | .vote _ _ | .configure _ _ | .readLine _ _ | .resume _ _
  | .load _ _ | .request _ _ | .abort _ _ | .clear _ _ | .readMailbox _ _ | .readCompletion _ _
  | .claim _ _ | .releaseChannel _ _ | .halt _ _ | .openChannel _ _ | .readChannel _ _
  | .setEntry _ _ | .freeEntry _ _ | .readEntry _ _ | .setQueue _ _ | .peek _ _ | .take _ _
  | .release _ _ | .readQueue _ _ | .setPort _ _ | .acknowledge _ _ | .resetPort _ _ | .nop _ _
  | .turnBegins | .activityBegins | .checkWordReadBack | .transmissionEnd _ | .replyByteStart
  | .replyByteEnd | .lineTimeEnd | .syncIdleCount | .syncEntryIdleSeen | .prstRelease _
  | .deviceResetEnds => true

end Sys2Proof
end

