-- ==== Sys2Proof/Safety.lean ====
section
/-! DEFINITION. What a sound state of the N3 is: the whole-machine rules of the spec, each over one part of
the state. Statements and proofs use them by name. -/

namespace Sys2Proof.Machine

/-! ## Channels and sequence tables -/

/-- R107: a channel is CLOSED exactly when it has no owner. -/
abbrev State.ChannelsSound (s : State) : Prop :=
  ∀ c : ChannelNo, (s.channel c).state = .closed ↔ (s.channel c).owner = none

/-- R92, R103: the sequence tables hold at most 32 entries, no two with one key, and every inbound entry has
a local channel that is owned. The bound of the outbound table rests on the pending list (R95) and is stated beside
this. -/
abbrev State.SequenceSound (s : State) : Prop :=
  (s.seq.outbound.map (fun e => (e.node, e.channel))).Nodup
    ∧ (s.seq.inbound.map (fun e => (e.node, e.channel))).Nodup
    ∧ s.seq.inbound.length ≤ tablePlaces
    ∧ ∀ e ∈ s.seq.inbound, (s.channel e.channel).owner ≠ none

/-- R121: a free entry holds enabled clear, EXACT and both parameters 0; R121, R122: an EXACT entry holds 0 as
its second parameter, a SPAN entry a high id not below its low id, a MASKED entry a value inside its mask. -/
abbrev Entry.Sound (e : Entry) : Prop :=
  (e.owner = none → e = Entry.free)
    ∧ (e.kind = .exact → e.second = 0)
    ∧ (e.kind = .span → e.first ≤ e.second)
    ∧ (e.kind = .masked → e.first &&& e.second = e.first)

/-- R121: every acceptance entry is sound. -/
abbrev State.EntriesSound (s : State) : Prop := ∀ i : EntryNo, (s.entry i).Sound

/-! ## Line state, line unit -/

/-- The N3 is sending: TRANSMITTING or AWAITING_REPLY (R19). -/
abbrev Activity.sendsOwn (a : Activity) : Prop := a = .transmitting ∨ a = .awaitingReply

/-- R19, R25, R29: the participation set is empty exactly in OFFLINE and LEAVING; LEAVING has an own frame in
flight; an own frame in flight is being sent or awaits its reply, and its reply is awaited only then; in OFFLINE
the line unit is IDLE. R12, R27: a first turn that is due after sync is due in ACTIVE on an idle line, with turn
counter 31 (log 27). -/
abbrev State.LineSound (s : State) : Prop :=
  (votesEmpty s.member.votes = true ↔ s.member.lineState = .offline ∨ s.member.lineState = .leaving)
    ∧ (s.member.lineState = .leaving → s.inFlight = true)
    ∧ (s.inFlight = true → s.line.activity.sendsOwn)
    ∧ (s.line.activity = .awaitingReply → s.inFlight = true)
    ∧ (s.inFlight = true → s.member.lineState = .active ∨ s.member.lineState = .leaving)
    ∧ (s.member.lineState = .offline → s.line.activity = .idle)
    ∧ (s.line.firstTurnDue = true →
        s.member.lineState = .active ∧ s.line.activity = .idle ∧ s.line.turn = 31)

/-- 01, DEN and TXD: DEN is high only while the N3 sends a frame of its own or a reply byte, that is while the
line activity state is TRANSMITTING, and TXD rests at the idle level otherwise. -/
abbrev State.DriverSound (s : State) : Prop :=
  (s.line.den = true ↔ s.line.activity = .transmitting) ∧ (s.line.den = false → s.line.txd = [])

/-! ## Fault confinement -/

/-- R38, R40, R45: the window holds at most 16 outcomes, at most 3 failures while ENGAGED and 4 to 9 while
GUARDED; the clean-round count is 0 outside silence and below 4 while SILENCED, and 4 at the most. -/
abbrev State.ConfinementSound (s : State) : Prop :=
  s.fault.window.length ≤ windowSize
    ∧ (s.fault.state = .engaged → failures s.fault.window ≤ 3 ∧ s.fault.cleanRounds = 0)
    ∧ (s.fault.state = .guarded →
        4 ≤ failures s.fault.window ∧ failures s.fault.window ≤ 9 ∧ s.fault.cleanRounds = 0)
    ∧ (s.fault.state = .silenced → s.fault.cleanRounds ≤ 3)
    ∧ s.fault.cleanRounds ≤ 4

/-! ## Frame store and receive queues -/

/-- The records of one queue that refer to a slot. -/
def State.refsAt (s : State) (i : SlotNo) (p : Port) : Nat :=
  (s.queue p).records.countP (fun r => r.slot == i)

/-- The records of the three queues that refer to a slot (R135). -/
def State.refsTo (s : State) (i : SlotNo) : Nat := s.refsAt i 0 + s.refsAt i 1 + s.refsAt i 2

/-- R135: the holder count of a slot is the number of queue records that refer to it, and the current reception
slot has none. -/
abbrev State.SlotsSound (s : State) : Prop :=
  (∀ i : SlotNo, s.store.holders[i] = s.refsTo i)
    ∧ (∀ i : SlotNo, s.store.rxSlot = some i → s.refsTo i = 0)

/-- R139, R140: a queue holds no more records than its capacity of 1 to 16, no two records refer to one slot,
the loss counts stop at 255, and a pin is on a head. -/
abbrev Queue.Sound (q : Queue) : Prop :=
  1 ≤ q.capacity ∧ q.capacity ≤ 16 ∧ q.records.length ≤ q.capacity
    ∧ (q.records.map (·.slot)).Nodup
    ∧ q.pendingLosses ≤ 255
    ∧ (∀ r ∈ q.records, r.lossesBefore ≤ 255)
    ∧ (q.headPinned = true → q.records ≠ [])

/-- R135, R139, R140, R145: slots and queues are sound, and RX is set exactly while the queue is non-empty. -/
abbrev State.StoreSound (s : State) : Prop :=
  s.SlotsSound
    ∧ (∀ p : Port, (s.queue p).Sound)
    ∧ (∀ p : Port, (s.engine p).flags.rx = !(s.queue p).records.isEmpty)

/-! ## Mailboxes and the pending list -/

/-- R54: the states in which a mailbox stands on the pending list. -/
def MailState.onPendingList : MailState → Bool
  | .queued | .sending | .held | .waitingSpace | .retiring => true
  | .vacant | .loaded | .done => false

/-- R54: its frame is on the line. -/
def MailState.onLine : MailState → Bool
  | .sending | .retiring => true
  | .vacant | .loaded | .queued | .held | .waitingSpace | .done => false

/-- R75: the pending list holds every mailbox that is QUEUED, SENDING, HELD, WAITING_SPACE or RETIRING, each
once, and no other. -/
abbrev State.PendingListSound (s : State) : Prop :=
  s.sched.refs.Nodup
    ∧ ∀ (p : Port) (i : MailboxIndex),
        ({ port := p, index := i } : Ref) ∈ s.sched.refs
          ↔ (s.mailbox { port := p, index := i }).state.onPendingList = true

/-- R54: a mailbox is SENDING or RETIRING exactly when the own frame in flight was built from it. -/
abbrev State.InFlightSound (s : State) : Prop :=
  ∀ (p : Port) (i : MailboxIndex),
    (s.mailbox { port := p, index := i }).state.onLine = true
      ↔ s.line.own.map (·.ref) = some { port := p, index := i }

/-- R66: a completion list holds only indices of the port's mailboxes that are DONE, each once. -/
abbrev State.CompletionsSound (s : State) : Prop :=
  ∀ p : Port, (s.completions p).Nodup
    ∧ ∀ i ∈ s.completions p, (s.mailbox { port := p, index := i }).state = .done

/-- R52, R53, R59: VACANT exactly without a record; an outcome exactly in DONE; an expiry cause exactly with
EXPIRED; abort-pending only in SENDING; a payload of at most 64 bytes; attempts at most one above the retry
limit, and not above it while QUEUED or HELD; a WAITING_SPACE mailbox is LOCAL, and a SENDING, HELD or RETIRING
one is not. -/
abbrev Mailbox.Sound (m : Mailbox) : Prop :=
  (m.state = .vacant ↔ m.record = none)
    ∧ (m.state = .done ↔ m.outcome ≠ none)
    ∧ (m.outcome = some .expired ↔ m.cause ≠ none)
    ∧ (m.abortPending = true → m.state = .sending)
    ∧ (m.state = .done → m.holdOff = 0)
    ∧ (∀ rec ∈ m.record, rec.payload.length ≤ 64
        ∧ m.attempts ≤ rec.retryLimit.toNat + 1
        ∧ ((m.state = .queued ∨ m.state = .held) → m.attempts ≤ rec.retryLimit.toNat)
        ∧ (m.state = .waitingSpace → rec.kind = .localHandOff)
        ∧ ((m.state = .sending ∨ m.state = .held ∨ m.state = .retiring) → rec.kind ≠ .localHandOff))

/-- R54, R66, R75: the mailbox bank and the pending list agree with one another and with the line unit. -/
abbrev State.BankSound (s : State) : Prop :=
  s.PendingListSound ∧ s.InFlightSound ∧ s.CompletionsSound
    ∧ ∀ (p : Port) (i : MailboxIndex), (s.mailbox { port := p, index := i }).Sound

/-- R84: no LOCAL mailbox is both QUEUED and eligible between events. -/
abbrev State.NoEligibleLocal (s : State) : Prop :=
  ∀ r ∈ s.sched.refs, s.isLocal r = true → s.free r = false

/-- R76: a mailbox in SENDING, RETIRING, HELD or WAITING_SPACE is not blocked. -/
abbrev State.OrderSound (s : State) : Prop :=
  ∀ r ∈ s.sched.refs, (s.mailbox r).state ≠ .queued → s.blocked r = false

/-! ## Ports -/

/-- R155, R157: the bytes received of a transaction are the code and the argument of the read command whose snapshot it
holds; without a snapshot a row has brought none (log 26). -/
abbrev Transaction.Sound (t : Transaction) : Prop :=
  (t.snapshot = none → t.received = [])
    ∧ ∀ n ∈ t.snapshot, t.received.head? = some n.cmd.code ∧ t.received.length = 2

/-- R155, R164, R167: a transaction in progress stands under a low CSn, with neither PRSTn nor RESET low, and its bytes
agree with its snapshot. -/
abbrev State.PortsSound (s : State) : Prop :=
  ∀ p : Port,
    ((s.engine p).txn ≠ none → (s.engine p).csLow = true ∧ (s.engine p).prstLow = false ∧ s.inReset = false)
      ∧ ∀ t ∈ (s.engine p).txn, t.Sound

/-! ## Frames -/

/-- The parts of the state, as a frame names them. -/
inductive Part where
  | line | votes | lineState | config | fault | boxes | completions | refs | rotation | orders | seq
  | channels | entries | store | queues | engines | inReset | draws
  deriving DecidableEq, Repr

/-- A part holds in `t` what it held in `s`. -/
def Part.Same (s t : State) : Part → Prop
  | .line => t.line = s.line
  | .votes => t.member.votes = s.member.votes
  | .lineState => t.member.lineState = s.member.lineState
  | .config => t.member.config = s.member.config
  | .fault => t.fault = s.fault
  | .boxes => t.mail.boxes = s.mail.boxes
  | .completions => t.mail.completions = s.mail.completions
  | .refs => t.sched.refs = s.sched.refs
  | .rotation => t.sched.rotation = s.sched.rotation
  | .orders => t.sched.orders = s.sched.orders
  | .seq => t.seq = s.seq
  | .channels => t.channels = s.channels
  | .entries => t.entries = s.entries
  | .store => t.store = s.store
  | .queues => t.queues = s.queues
  | .engines => t.engines = s.engines
  | .inReset => t.inReset = s.inReset
  | .draws => t.draws = s.draws

/-- Every part but the named ones holds in `t` what it held in `s`; so does the queue of commands. -/
def State.OnlyChanges (s t : State) (parts : List Part) : Prop :=
  t.pending = s.pending ∧ ∀ k : Part, k ∉ parts → k.Same s t

/-! ## A port between the begin and the release of a transaction -/

/-- A transaction is in progress at the port, and no snapshot has been taken in it. -/
abbrev State.InTransaction (s : State) (p : Port) : Prop :=
  (s.engine p).txn.map (fun t => (t.snapshot, t.received)) = some (none, [])

/-- A transaction is in progress at the port, in which this snapshot was taken; its byte 0 is the code of the read
command. -/
abbrev State.HasSnapshot (s : State) (p : Port) (n : Snapshot) : Prop :=
  (s.engine p).txn.map (fun t => (t.snapshot, t.received.head?)) = some (some n, some n.cmd.code)

/-- The engine after a command with the result `r`: the transaction is over, the last result is `r`, and ERROR is
set if `r` is not OK (R155, R158, R160). -/
abbrev Engine.answering (e : Engine) (r : Result) : Engine :=
  { e with lastResult := r, flags := { e.flags with error := e.flags.error || r != .ok },
           txn := none, csLow := false }

/-- What the release of a command with result `r` leaves at the ports when the command itself changes no flag and
no queue: the issuing port has answered and its transaction pin is released; the other ports are as they were. Of
the rest of the state only `parts` may differ. -/
abbrev State.Answered (s t : State) (p : Port) (r : Result) (parts : List Part) : Prop :=
  t.engine p = (s.engine p).answering r
    ∧ t.queue p = { s.queue p with txnPin := false }
    ∧ (∀ q : Port, q ≠ p → t.engine q = s.engine q ∧ t.queue q = s.queue q)
    ∧ s.OnlyChanges t (.engines :: .queues :: parts)

/-! ## What several rows bring about -/

/-- R135: the lowest-numbered slot of the free pool is `i`. -/
abbrev State.LowestFree (s : State) (i : SlotNo) : Prop :=
  s.slotFree i = true ∧ ∀ j : SlotNo, j < i → s.slotFree j = false

/-- R31, R51: LINE of every port in `t` is what it was in `s`, and set if `changed`. -/
abbrev State.LineFollows (s t : State) (changed : Prop) : Prop :=
  ∀ q : Port, (changed → (t.engine q).flags.line = true)
    ∧ (¬ changed → (t.engine q).flags.line = (s.engine q).flags.line)

/-- R66: the mailbox `r` has entered DONE: outcome and cause, hold-off 0, off the pending list, last on its port's
completion list or followed there by later completions, TXDONE. -/
abbrev State.Completed (s t : State) (r : Ref) (o : MailOutcome) (c : Option ExpiryCause) : Prop :=
  (t.mailbox r).state = .done ∧ (t.mailbox r).outcome = some o ∧ (t.mailbox r).cause = c
    ∧ (t.mailbox r).holdOff = 0 ∧ (t.mailbox r).record = (s.mailbox r).record
    ∧ (t.mailbox r).attempts = (s.mailbox r).attempts
    ∧ r ∉ t.sched.refs ∧ r.index ∈ t.completions r.port ∧ (t.engine r.port).flags.txDone = true

/-- R85, R86: the local hand-off decision for the LOCAL mailbox `w` with the record `rec`, made on `u`: refused on a
CLOSED or HALTED channel, waiting without room, delivered otherwise. -/
abbrev State.LocalDecided (u t : State) (w : Ref) (rec : MailRecord) : Prop :=
  ((u.channel rec.channel).state ≠ .opened →
      u.Completed t w .refused none ∧ t.store = u.store ∧ ∀ x, t.queue x = u.queue x)
    ∧ ∀ q : Port, u.channel rec.channel = { owner := some q, state := .opened } →
        ((u.queue q).full = true ∨ (∀ i : SlotNo, u.slotFree i = false) →
          t.mailbox w = { u.mailbox w with state := .waitingSpace } ∧ t.sched.refs = u.sched.refs
            ∧ t.store = u.store ∧ ∀ x, t.queue x = u.queue x)
        ∧ ∀ i : SlotNo, (u.queue q).full = false → u.LowestFree i →
          u.Completed t w .accepted none
            ∧ t.queue q = { u.queue q with
                records := (u.queue q).records
                  ++ [{ origin := .handOff w.port rec.channel, arrival := u.line.round,
                        lossesBefore := (u.queue q).pendingLosses, length := rec.payload.length, slot := i }],
                pendingLosses := 0 }
            ∧ (∀ x, x ≠ q → t.queue x = u.queue x)
            ∧ (t.engine q).flags.rx = true
            ∧ t.store.holders = u.store.holders.set i (u.store.holders[i] + 1)
            ∧ t.store.rxSlot = u.store.rxSlot
            ∧ (t.store.bytes[i]).toList.take rec.payload.length = rec.payload.take 64
            ∧ ∀ j : SlotNo, j ≠ i → t.store.bytes[j] = u.store.bytes[j]

/-- The LOCAL mailbox `w` with the record `rec` is on the pending list, and no other LOCAL mailbox is. -/
abbrev State.OnlyLocal (s : State) (w : Ref) (rec : MailRecord) : Prop :=
  w ∈ s.sched.refs ∧ (s.mailbox w).record = some rec ∧ rec.kind = .localHandOff
    ∧ ∀ r ∈ s.sched.refs, r ≠ w → s.isLocal r = false

/-- R79, R80: `r` has the lowest precedence key of the eligible mailboxes that `among` admits, and is the earliest
of those with that key. -/
abbrev State.LowestKeyOf (s : State) (among : Ref → Prop) (r : Ref) : Prop :=
  (∀ q ∈ s.sched.refs, among q → s.eligible q = true → s.key r ≤ s.key q)
    ∧ ∀ q ∈ s.earlier r, among q → s.eligible q = true → s.key r < s.key q

/-- R82: the frame of the mailbox `r` with the record `rec` has been handed on: the mailbox is SENDING with one more
attempt, and the line unit sends the frame built from the record, with the bit and flag of the outbound entry of the
pair for a REMOTE one. -/
abbrev State.HandsFrame (s t : State) (r : Ref) (rec : MailRecord) : Prop :=
  t.mailbox r = { s.mailbox r with state := .sending, attempts := (s.mailbox r).attempts + 1 }
    ∧ (∀ q : Ref, q ≠ r → t.mailbox q = s.mailbox q)
    ∧ t.line.activity = .transmitting ∧ t.line.den = true
    ∧ ∃ f : OwnFrame, t.line.own = some f ∧ t.line.txd = f.chars ∧ f.ref = r
        ∧ f.sender = s.member.config.nodeAddress ∧ f.payload = rec.payload
        ∧ (rec.kind = .group → f.body = .group rec.group ∧ t.seq = s.seq)
        ∧ (rec.kind = .remote → ∃ e : OutEntry,
            f.body = .addressed rec.dest rec.channel e.nextBit e.fresh
              ∧ e.node = rec.dest ∧ e.channel = rec.channel
              ∧ t.seq.outbound.head? = some e ∧ t.seq.inbound = s.seq.inbound
              ∧ (e ∈ s.seq.outbound
                  ∨ (∀ x ∈ s.seq.outbound, ¬ (x.node = rec.dest ∧ x.channel = rec.channel))
                      ∧ e.nextBit = false ∧ e.fresh = true))

/-- R5: what an activity has been classified as, whether frame start was raised for it, and whether its reception end
falls at its last check byte. -/
abbrev Classified.Is (v : Classified) (cls : RxClass) (frameStart atCheckByte : Bool) : Prop :=
  v.cls = cls ∧ v.frameStart = frameStart ∧ v.atCheckByte = atCheckByte

/-- The line unit is receiving, with this reception in progress. -/
abbrev State.Receives (s : State) (rx : Reception) : Prop :=
  s.line.activity = .receiving ∧ s.line.reception = some rx

/-- The own frame `f` is on the line, in this line activity state (R19). -/
abbrev State.Sends (s : State) (a : Activity) (f : OwnFrame) : Prop :=
  s.line.activity = a ∧ s.line.own = some f

/-- No LOCAL mailbox is on the pending list, so that a local pass finds nothing to decide (R84). -/
abbrev State.NoLocalPending (s : State) : Prop := ∀ r ∈ s.sched.refs, s.isLocal r = false

end Sys2Proof.Machine
end

