-- ==== Sys2Proof/Certificates/Slice0/Obligations.lean ====
section
/-! DEFINITION. The statements about the N3 that the provers settle, in the order of the spec's chapters: the queue of
commands, the ports, the line standing, the mailboxes, channels, entries, receive queues, the line events, and the
invariants. Every "there is a next state" is a completion: the hypotheses are on the state and the operands alone. -/

section Sys2ProofStatements

open Sys2Proof Sys2Proof.Machine

/-! ## The queue of commands -/

/-- Log 2: a step takes the command at the front of the queue; on an empty queue the part idles. -/
def Obligations.StepTakesFrontCommand : Prop :=
  (∀ (c : Instr) (rest : List Instr) (s : State),
      step { s with pending := c :: rest } = exec c { s with pending := rest })
    ∧ ∀ s : State, s.pending = [] → step s = .next s

/-- 95_what_each_step_holds.md, log 22: every command, on every operand, is taken whole: a next state, with the queue
of waiting commands as it was. -/
def Obligations.EveryCommandIsTakenWhole : Prop :=
  ∀ (c : Instr) (s : State), ∃ t, exec c s = .next t ∧ t.pending = s.pending

/-! ## Transactions and the port engine (10) -/

/-- R155: CSn goes low with PRSTn and RESET high; MISO bytes 0 and 1 are fixed, zeros follow. -/
def Obligations.TransactionBeginFixesFirstBytes : Prop :=
  ∀ (s : State) (p : Port),
    (s.engine p).csLow = false → (s.engine p).prstLow = false → s.inReset = false →
    ∃ t, exec (.transactionBegin p) s = .next t
      ∧ s.OnlyChanges t [.engines] ∧ (∀ q, q ≠ p → t.engine q = s.engine q)
      ∧ (t.engine p).lastResult = (s.engine p).lastResult ∧ (t.engine p).flags = (s.engine p).flags
      ∧ (t.engine p).mask = (s.engine p).mask ∧ (t.engine p).csLow = true ∧ t.InTransaction p
      ∧ t.miso p 0 = some (s.engine p).lastResult.code
      ∧ t.miso p 1 = some (s.engine p).flags.toByte
      ∧ ∀ k, t.miso p (k + 2) = some 0

/-- R155, R164, R167: a port whose PRSTn is low, a part in device reset, and a CSn that is low already begin no
transaction; PRSTn going high changes nothing else, and a PRSTn that is low has no falling edge (log 1); a release before
byte 0 completes discards the transaction in progress, and without one only takes CSn high (the model's reading, log 29). -/
def Obligations.HeldPortAndEmptyTransactionDoNothing : Prop :=
  ∀ (s : State) (p : Port),
    ((s.engine p).prstLow = true ∨ s.inReset = true ∨ (s.engine p).csLow = true →
      ∃ t, exec (.transactionBegin p) s = .next t
        ∧ t.engine p = { s.engine p with csLow := true }
        ∧ (∀ q, q ≠ p → t.engine q = s.engine q) ∧ s.OnlyChanges t [.engines])
    ∧ (∃ t, exec (.prstRelease p) s = .next t
        ∧ t.engine p = { s.engine p with prstLow := false }
        ∧ (∀ q, q ≠ p → t.engine q = s.engine q) ∧ s.OnlyChanges t [.engines])
    ∧ ((s.engine p).prstLow = true → exec (.portReset p) s = .next s)
    ∧ ((s.engine p).txn = none →
        ∃ t, exec (.transactionWithoutCommand p) s = .next t
          ∧ t.engine p = { s.engine p with csLow := false }
          ∧ (∀ q, q ≠ p → t.engine q = s.engine q) ∧ s.OnlyChanges t [.engines])
    ∧ (s.InTransaction p →
        ∃ t, exec (.transactionWithoutCommand p) s = .next t
          ∧ t.engine p = { s.engine p with txn := none, csLow := false }
          ∧ t.queue p = { s.queue p with txnPin := false }
          ∧ (∀ q, q ≠ p → t.engine q = s.engine q ∧ t.queue q = s.queue q)
          ∧ s.OnlyChanges t [.engines, .queues])

/-- R156, R157, R160: a transaction that ended before the last byte its command needs gives TRUNCATED, sets ERROR and
has no other effect: each command with its number of bytes after byte 0, each read command without its argument byte. -/
def Obligations.CutCommandsAreTruncated : Prop :=
  ∀ (s : State) (p : Port), s.InTransaction p →
    (∀ (needed : Nat) (bytes : List Byte) (i : Instr), bytes.length < needed →
        (needed, i) ∈ [(1, .vote p bytes), (4, .configure p bytes), (1, .resume p bytes), (11, .load p bytes),
          (1, .request p bytes), (1, .abort p bytes), (1, .clear p bytes), (2, .claim p bytes),
          (1, .releaseChannel p bytes), (1, .halt p bytes), (1, .openChannel p bytes), (7, .setEntry p bytes),
          (1, .freeEntry p bytes), (2, .setQueue p bytes), (1, .release p bytes), (2, .setPort p bytes),
          (1, .acknowledge p bytes), (1, .resetPort p bytes), (1, .nop p bytes)] →
        ∃ t, exec i s = .next t ∧ s.Answered t p .truncated [])
    ∧ (∀ (index kind dest chan gHi gLo key retry hold spare len : Byte) (payload : List Byte),
        len.toNat ≤ 64 → payload.length < len.toNat →
        ∃ t, exec (.load p (index :: kind :: dest :: chan :: gHi :: gLo :: key :: retry :: hold
            :: spare :: len :: payload)) s = .next t ∧ s.Answered t p .truncated [])
    ∧ ∀ (k : Nat) (i : Instr),
        i ∈ [.readLine p k, .readMailbox p k, .readCompletion p k, .readChannel p k, .readEntry p k, .peek p k,
             .take p k, .readQueue p k] →
        ∃ t, exec i s = .next t ∧ s.Answered t p .truncated []

/-- R155, R156, R158, R160 and the codes of the commands' own rules: the command that each of the 27 codes in byte 0
names, taken with the bytes after it; a code that names no command gives BAD_COMMAND and sets ERROR, whatever the length,
and NOP with its argument byte gives OK; neither has another effect. -/
def Obligations.CommandCodesNameTheCommands : Prop :=
  (∀ (p : Port) (bytes : List Byte),
      releaseRow p [] = .transactionWithoutCommand p
      ∧ (∀ (code : Byte) (i : Instr),
          (code, i) ∈ [(0x01, .vote p bytes), (0x02, .configure p bytes), (0x03, .readLine p (bytes.length - 1)),
            (0x04, .resume p bytes), (0x10, .load p bytes), (0x11, .request p bytes), (0x12, .abort p bytes),
            (0x13, .clear p bytes), (0x14, .readMailbox p (bytes.length - 1)),
            (0x15, .readCompletion p (bytes.length - 1)), (0x20, .claim p bytes), (0x21, .releaseChannel p bytes),
            (0x22, .halt p bytes), (0x23, .openChannel p bytes), (0x24, .readChannel p (bytes.length - 1)),
            (0x30, .setEntry p bytes), (0x31, .freeEntry p bytes), (0x32, .readEntry p (bytes.length - 1)),
            (0x40, .setQueue p bytes), (0x41, .peek p (bytes.length - 1)), (0x42, .take p (bytes.length - 1)),
            (0x43, .release p bytes), (0x44, .readQueue p (bytes.length - 1)), (0x50, .setPort p bytes),
            (0x51, .acknowledge p bytes), (0x52, .resetPort p bytes), (0x53, .nop p bytes)] →
          releaseRow p (code :: bytes) = i))
    ∧ ∀ (s : State) (p : Port) (bytes : List Byte), s.InTransaction p →
      (∀ code : Byte,
          code ∉ [0x01, 0x02, 0x03, 0x04, 0x10, 0x11, 0x12, 0x13, 0x14, 0x15, 0x20, 0x21, 0x22, 0x23, 0x24,
                  0x30, 0x31, 0x32, 0x40, 0x41, 0x42, 0x43, 0x44, 0x50, 0x51, 0x52, 0x53] →
          releaseRow p (code :: bytes) = .badCommand p code bytes
          ∧ ∃ t, exec (.badCommand p code bytes) s = .next t ∧ s.Answered t p .badCommand [])
      ∧ (bytes ≠ [] → ∃ t, exec (.nop p bytes) s = .next t ∧ s.Answered t p .ok [])

/-- R155, R157, R146: the argument byte of a read command completes: the transaction in progress holds the two bytes
received and one snapshot, which is clocked out from MISO byte 2 on; PEEK and TAKE on a non-empty queue hold the transaction pin; nothing else changes. -/
def Obligations.SnapshotIsHeldAndPinned : Prop :=
  ∀ (s : State) (p : Port) (cmd : ReadCommand) (arg : Byte), s.InTransaction p →
    ∃ t n, exec (.readSnapshot p cmd arg) s = .next t ∧ t.HasSnapshot p n ∧ n.cmd = cmd
      ∧ (t.engine p).txn.map (·.received)
          = some [(match cmd with
              | .line => 0x03 | .mailbox => 0x14 | .completion => 0x15 | .channel => 0x24 | .entry => 0x32
              | .peek => 0x41 | .take => 0x42 | .queue => 0x44), arg]
      ∧ (∀ k, t.miso p (k + 2) = some (n.data.getD k 0))
      ∧ t.miso p 0 = s.miso p 0 ∧ t.miso p 1 = s.miso p 1
      ∧ (t.engine p).lastResult = (s.engine p).lastResult ∧ (t.engine p).flags = (s.engine p).flags
      ∧ (t.engine p).mask = (s.engine p).mask
      ∧ t.queue p = { s.queue p with
          txnPin := (s.queue p).txnPin
            || ((cmd == .peek || cmd == .take) && !(s.queue p).records.isEmpty) }
      ∧ (∀ q, q ≠ p → t.engine q = s.engine q ∧ t.queue q = s.queue q)
      ∧ s.OnlyChanges t [.engines, .queues]

/-- R157: the four read commands without a side effect give at release TRUNCATED, BAD_ARGUMENT, EMPTY or OK, and
change nothing else. `k` is the number of read-data bytes that completed. -/
def Obligations.ReadsWithoutSideEffectAnswer : Prop :=
  ∀ (s : State) (p : Port) (k : Nat) (i : Instr) (cmd : ReadCommand),
    (i, cmd) ∈ [(.readMailbox p k, .mailbox), (.readChannel p k, .channel), (.readEntry p k, .entry),
                (.readQueue p k, .queue)] →
    ∀ n : Snapshot, s.HasSnapshot p n → n.cmd = cmd →
        ∃ t r, exec i s = .next t ∧ s.Answered t p r []
          ∧ (n.verdict = .badArgument → r = .badArgument)
          ∧ (n.verdict = .empty → r = .empty)
          ∧ (n.verdict = .valid → k < n.data.length → r = .truncated)
          ∧ (n.verdict = .valid → n.data.length ≤ k → r = .ok)

/-- R168, R161 and the codes of R22, R24, R25, R35, R41, R54, R67, R52, R113, R122, R152, R149: the layout of the
attention byte, the result codes, ATNn asserted exactly while a flag is both set and unmasked, and the codes of vote,
mode, line state, confinement state, line activity state, mailbox state, outcome, expiry cause, mailbox kind, channel
state, entry kind, overflow policy, owner port and origin. The codes of the share policy and the recovery policy are in
ReadLineReportsStanding. -/
def Obligations.AttentionByteAndReportCodes : Prop :=
  (∀ a : Attention,
      a.toByte.getLsbD 0 = a.rx ∧ a.toByte.getLsbD 1 = a.txDone ∧ a.toByte.getLsbD 2 = a.loss
        ∧ a.toByte.getLsbD 3 = a.line ∧ a.toByte.getLsbD 4 = a.error ∧ a.toByte.toNat < 32
        ∧ Attention.ofByte a.toByte = a)
    ∧ (∀ b : Byte, (Attention.ofByte b).rx = b.getLsbD 0 ∧ (Attention.ofByte b).txDone = b.getLsbD 1
        ∧ (Attention.ofByte b).loss = b.getLsbD 2 ∧ (Attention.ofByte b).line = b.getLsbD 3
        ∧ (Attention.ofByte b).error = b.getLsbD 4)
    ∧ ([.ok, .badCommand, .badArgument, .truncated, .busy, .notPending, .ownedElsewhere, .notOwner, .offline, .empty,
        .notReady] : List Result).map Result.code
        = [0x00, 0x01, 0x02, 0x03, 0x04, 0x05, 0x06, 0x07, 0x08, 0x09, 0x0A]
    ∧ (∀ (s : State) (p : Port),
        s.atn p = true
          ↔ ∃ k, k < 5 ∧ (s.engine p).flags.toByte.getLsbD k = true ∧ (s.engine p).mask.toByte.getLsbD k = true)
    ∧ ([.none, .listen, .full] : List Vote).map Vote.code = [0, 1, 2]
    ∧ ([none, some .listen, some .full] : List (Option Mode)).map modeCode = [0, 1, 2]
    ∧ ([.offline, .syncing, .active, .leaving] : List LineState).map LineState.code = [0, 1, 2, 3]
    ∧ ([.engaged, .guarded, .silenced, .readyToResume] : List ConfinementState).map ConfinementState.code
        = [0, 1, 2, 3]
    ∧ ([.idle, .receiving, .transmitting, .awaitingReply] : List Activity).map Activity.code = [0, 1, 2, 3]
    ∧ ([.vacant, .loaded, .queued, .sending, .held, .waitingSpace, .done, .retiring] : List MailState).map
        MailState.code = [0, 1, 2, 3, 4, 5, 6, 7]
    ∧ ([none, some .accepted, some .sent, some .refused, some .expired, some .aborted, some .withdrawn]
        : List (Option MailOutcome)).map outcomeCode = [0, 1, 2, 3, 4, 5, 6]
    ∧ ([none, some .deferred, some .noReply, some .badReply, some .collision]
        : List (Option ExpiryCause)).map causeCode = [0, 1, 2, 3, 4]
    ∧ ([.remote, .localHandOff, .group] : List MailKind).map MailKind.code = [0, 1, 2]
    ∧ ([.closed, .opened, .halted] : List ChannelState).map ChannelState.code = [0, 1, 2]
    ∧ ([.exact, .span, .masked] : List EntryKind).map EntryKind.code = [0, 1, 2]
    ∧ ([.dropNew, .displace] : List OverflowPolicy).map OverflowPolicy.code = [0, 1]
    ∧ ([none, some 0, some 1, some 2] : List (Option Port)).map ownerByte = [0xFF, 0, 1, 2]
    ∧ (∀ (n : NodeAddr) (c : ChannelNo) (g : GroupId) (e : EntryNo) (q : Port),
        [Origin.lineAddressed n c, .lineGroup n g e, .echo q g e, .handOff q c].map Origin.code = [0, 1, 2, 3])

/-- R162, R161: SET_PORT with its checks in order; under OK mask and order take the new values, and ATNn follows. -/
def Obligations.SetPortWritesMaskAndOrder : Prop :=
  ∀ (s : State) (p : Port), s.InTransaction p →
    ∀ (m o : Byte) (rest : List Byte),
        (32 ≤ m.toNat ∨ 1 < o.toNat →
          ∃ t, exec (.setPort p (m :: o :: rest)) s = .next t ∧ s.Answered t p .badArgument [])
        ∧ (m.toNat < 32 → o.toNat ≤ 1 →
          ∃ t, exec (.setPort p (m :: o :: rest)) s = .next t
            ∧ t.engine p = { (s.engine p).answering .ok with mask := Attention.ofByte m }
            ∧ t.order p = (if o = 0 then .key else .arrival)
            ∧ (∀ q, q ≠ p → t.engine q = s.engine q ∧ t.queue q = s.queue q ∧ t.order q = s.order q)
            ∧ t.queue p = { s.queue p with txnPin := false }
            ∧ s.OnlyChanges t [.engines, .queues, .orders])

/-- R163, R160: ACKNOWLEDGE clears exactly the edge flags that its argument names; RX keeps its level; a result other
than OK leaves ERROR set. -/
def Obligations.AcknowledgeClearsNamedEdgeFlags : Prop :=
  ∀ (s : State) (p : Port), s.InTransaction p →
    (∃ t, exec (.acknowledge p []) s = .next t ∧ s.Answered t p .truncated [])
    ∧ ∀ (b : Byte) (rest : List Byte),
        (32 ≤ b.toNat →
          ∃ t, exec (.acknowledge p (b :: rest)) s = .next t ∧ s.Answered t p .badArgument [])
        ∧ (b.toNat < 32 →
          ∃ t, exec (.acknowledge p (b :: rest)) s = .next t
            ∧ t.engine p = { s.engine p with
                lastResult := .ok, txn := none, csLow := false,
                flags := { rx := (s.engine p).flags.rx,
                           txDone := (s.engine p).flags.txDone && !b.getLsbD 1,
                           loss := (s.engine p).flags.loss && !b.getLsbD 2,
                           line := (s.engine p).flags.line && !b.getLsbD 3,
                           error := (s.engine p).flags.error && !b.getLsbD 4 } }
            ∧ t.queue p = { s.queue p with txnPin := false }
            ∧ (∀ q, q ≠ p → t.engine q = s.engine q ∧ t.queue q = s.queue q)
            ∧ s.OnlyChanges t [.engines, .queues])

/-! ## Resets -/

/-- R164, R165, R28, R37, R72, R90, R119, R134, R154, R81, R87: a port reset of port p, by the falling edge of PRSTp or by
a complete RESET_PORT, at the state of port p, with the references that leave the pending list, the holders that the
records of its queue give back, the line state by the votes left, and the mailboxes of other ports that wait on its
channels. The model's reading of the order of the blocks is log 10. -/
def Obligations.PortResetClearsThePort : Prop :=
  ∀ (s : State) (p : Port) (i : Instr) (prst : Bool),
    ((i = .portReset p ∧ (s.engine p).prstLow = false ∧ prst = true)
      ∨ (∃ b rest, i = .resetPort p (b :: rest)) ∧ s.InTransaction p ∧ prst = (s.engine p).prstLow) →
    ∃ t, exec i s = .next t
      ∧ (t.engine p).lastResult = .ok ∧ (t.engine p).mask = .none ∧ (t.engine p).txn = none
      ∧ (t.engine p).prstLow = prst
      ∧ (t.engine p).flags = { Attention.none with line := (t.engine p).flags.line }
      ∧ ((t.engine p).flags.line = true
          ↔ t.member.lineState ≠ s.member.lineState ∨ t.mode ≠ s.mode)
      ∧ t.vote p = .none ∧ (∀ q, q ≠ p → t.vote q = s.vote q)
      ∧ (∀ k : MailboxIndex,
          t.mailbox ⟨p, k⟩ =
            (match (s.mailbox ⟨p, k⟩).state with
             | .sending => { s.mailbox ⟨p, k⟩ with state := .retiring, abortPending := false }
             | .retiring => s.mailbox ⟨p, k⟩
             | _ => Mailbox.vacant))
      ∧ t.completions p = []
      ∧ (∀ c : ChannelNo, t.channel c = if (s.channel c).owner = some p then Channel.free else s.channel c)
      ∧ (∀ e : EntryNo, t.entry e = if (s.entry e).owner = some p then Entry.free else s.entry e)
      ∧ t.seq.outbound = s.seq.outbound
      ∧ t.seq.inbound = s.seq.inbound.filter (fun e => (s.channel e.channel).owner != some p)
      ∧ ((∀ q, q ≠ p → s.vote q = .none) →
          t.member.lineState = (match s.member.lineState with
            | .offline => .offline | .syncing => .offline
            | .active => if s.line.own = none then .offline else .leaving
            | .leaving => .leaving))
      ∧ ((∃ q, q ≠ p ∧ s.vote q ≠ .none) → s.member.lineState = .syncing ∨ s.member.lineState = .active →
          t.member.lineState = s.member.lineState)
      ∧ (∀ r ∈ t.sched.refs, r.port = p → (s.mailbox r).state = .sending ∨ (s.mailbox r).state = .retiring)
      ∧ t.sched.refs.filter (fun r => !s.isLocal r)
          = s.sched.refs.filter (fun r => !s.isLocal r
              && (r.port != p || (s.mailbox r).state == .sending || (s.mailbox r).state == .retiring)
              && (t.member.lineState != .offline || s.member.lineState == .offline || !s.withdrawable r))
      ∧ (∀ (w : Ref) (rec : MailRecord), w ∈ s.sched.refs → w.port ≠ p → (s.mailbox w).state = .waitingSpace →
          (s.mailbox w).record = some rec → rec.kind = .localHandOff → (s.channel rec.channel).owner = some p →
          s.Completed t w .refused none)
      ∧ ((∀ r ∈ s.sched.refs, r.port ≠ p → s.isLocal r = false) →
          t.store.bytes = s.store.bytes ∧ ∀ i : SlotNo, t.store.holders[i] = s.store.holders[i] - s.refsAt i p)
      ∧ t.queue p = Queue.initial
      ∧ t.order p = .key ∧ (∀ q, q ≠ p → t.order q = s.order q)
      ∧ s.OnlyChanges t [.votes, .lineState, .line, .fault, .boxes, .completions, .refs, .orders, .seq,
          .channels, .entries, .store, .queues, .engines]

/-- R167 with R21, R37, R50, R74, R91, R105, R120, R134, R154, R164: what device reset leaves in every block, and that
its end changes no block. The levels of the port pins stay (log 5), and so do the model's own queue and counter. -/
def Obligations.DeviceResetSetsEveryBlock : Prop :=
  ∀ s : State,
    (∃ t, exec .deviceReset s = .next t
      ∧ t.line.turn = 0 ∧ t.line.round = 0 ∧ t.line.activity = .idle ∧ t.line.own = none
      ∧ t.line.holdFlag = false ∧ t.line.syncIdle = 0 ∧ t.line.firstTurnDue = false
      ∧ t.line.checkErrors = 0 ∧ t.line.turnSlips = 0 ∧ t.line.den = false ∧ t.line.txd = [] ∧ t.line.reception = none ∧ t.line.reply = none
      ∧ (∀ p, t.vote p = .none) ∧ t.member.lineState = .offline ∧ t.mode = none
      ∧ t.member.config = { nodeAddress := 0, bitRate := 1, share := .key, recovery := .auto }
      ∧ t.fault = { window := [], state := .engaged, cleanRounds := 0, spoiled := true }
      ∧ (∀ r, t.mailbox r = Mailbox.vacant) ∧ (∀ p, t.completions p = [])
      ∧ t.sched.refs = [] ∧ t.sched.rotation = 0 ∧ (∀ p, t.order p = .key)
      ∧ t.seq.outbound = [] ∧ t.seq.inbound = []
      ∧ (∀ c, t.channel c = { owner := none, state := .closed })
      ∧ (∀ e, t.entry e = { owner := none, enabled := false, kind := .exact, first := 0, second := 0 })
      ∧ (∀ i : SlotNo, t.store.holders[i] = 0) ∧ t.store.rxSlot = none ∧ t.freeSlots = List.finRange 32
      ∧ (∀ p, t.queue p = { capacity := 4, policy := .dropNew, records := [], pendingLosses := 0,
                            pin := false, txnPin := false })
      ∧ (∀ p, t.engine p = { lastResult := .ok, flags := .none, mask := .none, txn := none,
                             csLow := (s.engine p).csLow, prstLow := (s.engine p).prstLow })
      ∧ t.inReset = true ∧ t.pending = s.pending ∧ t.draws = s.draws)
    ∧ ∃ t, exec .deviceResetEnds s = .next t ∧ t.inReset = false ∧ s.OnlyChanges t [.inReset]

/-! ## Membership, line configuration, confinement (02, 03) -/

/-- R23, R24, R25, R26, R28, R29, R31: a VOTE cut short, out of range, or of the present vote has no effect; one that
changes the vote of its port sets it, moves line state and mode in the same event, and sets LINE at every port exactly if
one of them changed. -/
def Obligations.VoteMovesLineStateAndMode : Prop :=
  ∀ (s : State) (p : Port) (v : Vote) (rest : List Byte), s.InTransaction p →
    (∃ t, exec (.vote p []) s = .next t ∧ s.Answered t p .truncated [])
    ∧ (∀ b : Byte, 2 < b.toNat → ∃ t, exec (.vote p (b :: rest)) s = .next t ∧ s.Answered t p .badArgument [])
    ∧ (v = s.vote p → ∃ t, exec (.vote p (v.code :: rest)) s = .next t ∧ s.Answered t p .ok [])
    ∧ (v ≠ s.vote p →
    ∃ t, exec (.vote p (v.code :: rest)) s = .next t
      ∧ (t.engine p).lastResult = .ok ∧ (t.engine p).txn = none
      ∧ t.vote p = v ∧ (∀ q, q ≠ p → t.vote q = s.vote q)
      ∧ ((∃ q, t.vote q = .full) → t.mode = some .full)
      ∧ ((∀ q, t.vote q ≠ .full) → (∃ q, t.vote q = .listen) → t.mode = some .listen)
      ∧ ((∀ q, t.vote q = .none) → t.mode = none)
      ∧ ((∃ q, t.vote q ≠ .none) →
          t.member.lineState = (match s.member.lineState with
            | .offline => .syncing | .syncing => .syncing | .active => .active | .leaving => .active))
      ∧ ((∀ q, t.vote q = .none) →
          t.member.lineState = (match s.member.lineState with
            | .offline => .offline | .syncing => .offline
            | .active => if s.line.own = none then .offline else .leaving
            | .leaving => .leaving))
      ∧ (s.member.lineState = .offline → (∃ q, t.vote q ≠ .none) →
          t.line = { s.line with syncIdle := 0, busyUntilIdle := true })
      ∧ (t.line.turn = s.line.turn ∧ t.line.round = s.line.round ∧ t.line.own = s.line.own
          ∧ t.line.checkErrors = s.line.checkErrors ∧ t.line.turnSlips = s.line.turnSlips)
      ∧ s.LineFollows t (t.member.lineState ≠ s.member.lineState ∨ t.mode ≠ s.mode)
      ∧ s.OnlyChanges t [.votes, .lineState, .line, .fault, .boxes, .completions, .refs, .store, .queues, .engines])

/-- R30, R71, R49, R11, R18: a VOTE that takes the node from SYNCING or ACTIVE to OFFLINE: the line unit idle and
released, the reception slot returned, every QUEUED or HELD line mailbox withdrawn in pending-list order, the
clean-round count 0; a first turn that was due after sync is due no longer (log 27). -/
def Obligations.EntryToOfflineWithdraws : Prop :=
  ∀ (s : State) (p : Port) (rest : List Byte), s.InTransaction p → s.PendingListSound →
    s.vote p ≠ .none → (∀ q, q ≠ p → s.vote q = .none) →
    (s.member.lineState = .syncing ∨ s.member.lineState = .active ∧ s.line.own = none) →
    ∃ t, exec (.vote p (0 :: rest)) s = .next t
      ∧ t.member.lineState = .offline ∧ t.mode = none
      ∧ t.line.activity = .idle ∧ t.line.reception = none ∧ t.line.reply = none ∧ t.line.holdFlag = false
      ∧ t.line.den = false ∧ t.line.txd = [] ∧ t.line.firstTurnDue = false ∧ t.store.rxSlot = none
      ∧ t.fault = { s.fault with cleanRounds := 0 }
      ∧ (∀ r : Ref, s.withdrawable r = true → s.Completed t r .withdrawn none)
      ∧ (∀ r : Ref, s.isLocal r = false → s.withdrawable r = false → t.mailbox r = s.mailbox r)
      ∧ (∀ q : Port,
          s.completions q ++ ((s.sched.refs.filter (fun r => s.withdrawable r && r.port == q)).map (·.index))
            <+: t.completions q)
      ∧ t.seq = s.seq ∧ t.channels = s.channels ∧ t.entries = s.entries

/-- R71: which mailboxes an entry to OFFLINE withdraws; R77: which mailboxes are eligible for choice. -/
def Obligations.WithdrawableAndEligibleExactly : Prop :=
  ∀ (s : State) (r : Ref),
    (s.withdrawable r = true
      ↔ (s.kind r = some .remote ∨ s.kind r = some .group)
        ∧ ((s.mailbox r).state = .queued ∨ (s.mailbox r).state = .held))
    ∧ (s.eligible r = true
      ↔ (s.kind r = some .remote ∨ s.kind r = some .group) ∧ (s.mailbox r).state = .queued
        ∧ (s.mailbox r).holdOff = 0
        ∧ ¬ ∃ e ∈ s.sched.refs.takeWhile (· ≠ r), s.destination e = s.destination r)

/-- R33, R34, R104: CONFIGURE with its checks in order; a new address or bit rate empties both sequence tables. -/
def Obligations.ConfigureReplacesTheRecord : Prop :=
  ∀ (s : State) (p : Port), s.InTransaction p →
    (∀ bytes : List Byte, bytes.length < 4 →
        ∃ t, exec (.configure p bytes) s = .next t ∧ s.Answered t p .truncated [])
    ∧ ∀ (a b c d : Byte) (rest : List Byte),
        (s.member.lineState ≠ .offline →
          ∃ t, exec (.configure p (a :: b :: c :: d :: rest)) s = .next t ∧ s.Answered t p .busy [])
        ∧ (s.member.lineState = .offline → 31 < a.toNat ∨ 4 < b.toNat ∨ 1 < c.toNat ∨ 1 < d.toNat →
          ∃ t, exec (.configure p (a :: b :: c :: d :: rest)) s = .next t ∧ s.Answered t p .badArgument [])
        ∧ (s.member.lineState = .offline → a.toNat ≤ 31 → ∀ hb : b.toNat < 5, c.toNat ≤ 1 → d.toNat ≤ 1 →
          ∃ t, exec (.configure p (a :: b :: c :: d :: rest)) s = .next t
            ∧ s.Answered t p .ok [.config, .seq]
            ∧ t.member.config =
                { nodeAddress := BitVec.ofNat 5 a.toNat, bitRate := ⟨b.toNat, hb⟩,
                  share := if c = 0 then .key else .rotate,
                  recovery := if d = 0 then .auto else .manual }
            ∧ t.seq = if t.member.config.nodeAddress = s.member.config.nodeAddress
                          ∧ t.member.config.bitRate = s.member.config.bitRate
                      then s.seq else { outbound := [], inbound := [] })

/-- R35: the twenty bytes of READ_LINE, taken when its argument byte completes; R36: an argument above 1 is refused. -/
def Obligations.ReadLineReportsStanding : Prop :=
  ∀ (s : State) (p : Port) (arg : Byte), s.InTransaction p →
    ∃ t n, exec (.readSnapshot p .line arg) s = .next t ∧ t.HasSnapshot p n
      ∧ (1 < arg.toNat → n.verdict = .badArgument ∧ n.data = [])
      ∧ (arg.toNat ≤ 1 → n.verdict = .valid
          ∧ n.effect = (if arg = 0 then .none else .reduce s.line.checkErrors s.line.turnSlips)
          ∧ n.data =
            [s.member.lineState.code, modeCode s.mode, (s.vote 0).code, (s.vote 1).code, (s.vote 2).code,
             BitVec.ofNat 8 s.member.config.nodeAddress.toNat, BitVec.ofNat 8 s.member.config.bitRate.val,
             (if s.member.config.share = .key then 0 else 1),
             (if s.member.config.recovery = .auto then 0 else 1), s.fault.state.code,
             BitVec.ofNat 8 s.fault.window.length, BitVec.ofNat 8 (s.fault.window.count .fail),
             BitVec.ofNat 8 s.fault.cleanRounds, s.line.activity.code, BitVec.ofNat 8 s.line.turn.toNat,
             s.line.round,
             BitVec.ofNat 8 (s.line.checkErrors.toNat / 256), BitVec.ofNat 8 s.line.checkErrors.toNat,
             BitVec.ofNat 8 (s.line.turnSlips.toNat / 256), BitVec.ofNat 8 s.line.turnSlips.toNat])

/-- R36, R20: a complete READ_LINE with argument 1 reduces each counter at release by the value reported, to 0 at the
least; every other READ_LINE leaves them. -/
def Obligations.ReadLineReducesCounters : Prop :=
  ∀ (s : State) (p : Port) (k : Nat),
    ∀ n : Snapshot, s.HasSnapshot p n → n.cmd = .line →
        (n.verdict = .badArgument →
          ∃ t, exec (.readLine p k) s = .next t ∧ s.Answered t p .badArgument [])
        ∧ (n.verdict = .valid → k < n.data.length →
          ∃ t, exec (.readLine p k) s = .next t ∧ s.Answered t p .truncated [])
        ∧ (n.verdict = .valid → n.data.length ≤ k → n.effect = .none →
          ∃ t, exec (.readLine p k) s = .next t ∧ s.Answered t p .ok [])
        ∧ (∀ c e : BitVec 16, n.verdict = .valid → n.data.length ≤ k → n.effect = .reduce c e →
          ∃ t, exec (.readLine p k) s = .next t ∧ s.Answered t p .ok [.line]
            ∧ t.line = { s.line with checkErrors := t.line.checkErrors, turnSlips := t.line.turnSlips }
            ∧ t.line.checkErrors.toNat = s.line.checkErrors.toNat - c.toNat
            ∧ t.line.turnSlips.toNat = s.line.turnSlips.toNat - e.toNat)

/-- R48, R51: RESUME ends READY_TO_RESUME and sets LINE at all ports; in any other state it changes nothing. -/
def Obligations.ResumeEndsReadyToResume : Prop :=
  ∀ (s : State) (p : Port), s.InTransaction p →
    (∃ t, exec (.resume p []) s = .next t ∧ s.Answered t p .truncated [])
    ∧ ∀ (b : Byte) (rest : List Byte),
        (s.fault.state = .silenced →
          ∃ t, exec (.resume p (b :: rest)) s = .next t ∧ s.Answered t p .notReady [])
        ∧ (s.fault.state = .engaged ∨ s.fault.state = .guarded →
          ∃ t, exec (.resume p (b :: rest)) s = .next t ∧ s.Answered t p .notPending [])
        ∧ (s.fault.state = .readyToResume →
          ∃ t, exec (.resume p (b :: rest)) s = .next t
            ∧ t.fault = { s.fault with window := [], state := .engaged, cleanRounds := 0 }
            ∧ (t.engine p).lastResult = .ok ∧ (t.engine p).txn = none
            ∧ (∀ q, t.engine q =
                { t.engine q with flags := { (s.engine q).flags with line := true },
                                  mask := (s.engine q).mask })
            ∧ s.OnlyChanges t [.fault, .engines, .queues])

/-- R38, R39, R40: the append of a raw result: at most 16 outcomes, the oldest lost first; the state by the failure
count after the append; entry to SILENCED spoils the round; LINE exactly on a change of state. -/
def Obligations.AppendedOutcomeMovesConfinement : Prop :=
  ∀ (s : State) (raw : RawResult), s.fault.window.length ≤ 16 →
    ∃ w st, (s.appendHealth raw).fault.window = w ∧ (s.appendHealth raw).fault.state = st
      ∧ (∃ h, w = (s.fault.window.drop (if s.fault.window.length = 16 then 1 else 0)) ++ [h]
          ∧ (h = .ok ↔ raw = .sentClean ∨ raw = .accept ∨ raw = .defer ∨ raw = .refuse))
      ∧ (s.fault.state = .engaged → st = if 4 ≤ w.count .fail then .guarded else .engaged)
      ∧ (s.fault.state = .guarded →
          st = if 10 ≤ w.count .fail then .silenced
               else if w.count .fail ≤ 3 then .engaged else .guarded)
      ∧ ((s.fault.state = .guarded ∧ st = .silenced) →
          (s.appendHealth raw).fault.spoiled = true ∧ (s.appendHealth raw).fault.cleanRounds = 0)
      ∧ (st ≠ .silenced → (s.appendHealth raw).fault.spoiled = s.fault.spoiled)
      ∧ s.LineFollows (s.appendHealth raw) (st ≠ s.fault.state)
      ∧ s.OnlyChanges (s.appendHealth raw) [.fault, .engines]

/-! ## Transmit mailboxes (04) -/

/-- R55, R52, R170: an accepted LOAD writes the record, with the fields that its kind does not use held as 0, and resets
the progress fields; the mailbox leaves the completion list. -/
def Obligations.LoadWritesTheRecord : Prop :=
  ∀ (s : State) (p : Port) (k : MailboxIndex) (kind dest chan gHi gLo key retry hold spare len : Byte)
    (payload : List Byte),
    s.InTransaction p → (s.mailbox ⟨p, k⟩).state ∈ [.vacant, .loaded, .done] →
    len.toNat ≤ 64 → len.toNat ≤ payload.length →
    ∀ rec : MailRecord,
      rec.key = key → rec.holdOffRounds = hold → rec.payload = payload.take len.toNat →
      ((kind = 0 ∧ rec.kind = .remote ∧ dest.toNat = rec.dest.toNat ∧ chan.toNat = rec.channel.val
          ∧ rec.group = 0 ∧ retry.toNat = rec.retryLimit.toNat)
        ∨ (kind = 1 ∧ rec.kind = .localHandOff ∧ rec.dest = 0 ∧ chan.toNat = rec.channel.val
          ∧ rec.group = 0 ∧ rec.retryLimit = 0)
        ∨ (kind = 2 ∧ rec.kind = .group ∧ rec.dest = 0 ∧ rec.channel = 0
          ∧ 256 * gHi.toNat + gLo.toNat = rec.group.toNat ∧ retry.toNat = rec.retryLimit.toNat)) →
      ∃ t, exec (.load p (BitVec.ofNat 8 k.val :: kind :: dest :: chan :: gHi :: gLo :: key :: retry :: hold
            :: spare :: len :: payload)) s = .next t
        ∧ s.Answered t p .ok [.boxes, .completions]
        ∧ t.mailbox ⟨p, k⟩ = { record := some rec, state := .loaded, outcome := none, cause := none,
                               attempts := 0, lateAbort := false, abortPending := false, holdOff := 0 }
        ∧ (∀ r : Ref, r ≠ ⟨p, k⟩ → t.mailbox r = s.mailbox r)
        ∧ t.completions p = (s.completions p).filter (· ≠ k)
        ∧ (∀ q, q ≠ p → t.completions q = s.completions q)

/-- R55, R56: the refusals of LOAD and of REQUEST, in the order of their checks after the length check. -/
def Obligations.LoadAndRequestRefusals : Prop :=
  ∀ (s : State) (p : Port), s.InTransaction p →
    (∀ (index kind dest chan gHi gLo key retry hold spare len : Byte) (payload : List Byte),
        64 < len.toNat ∨ len.toNat ≤ payload.length →
        (3 < index.toNat →
          ∃ t, exec (.load p (index :: kind :: dest :: chan :: gHi :: gLo :: key :: retry :: hold
              :: spare :: len :: payload)) s = .next t ∧ s.Answered t p .badArgument [])
        ∧ ∀ k : MailboxIndex, index.toNat = k.val →
            ((s.mailbox ⟨p, k⟩).state ∈ [.queued, .sending, .held, .waitingSpace, .retiring] →
              ∃ t, exec (.load p (index :: kind :: dest :: chan :: gHi :: gLo :: key :: retry :: hold
                  :: spare :: len :: payload)) s = .next t ∧ s.Answered t p .busy [])
            ∧ ((s.mailbox ⟨p, k⟩).state ∈ [.vacant, .loaded, .done] →
                (2 < kind.toNat ∨ 64 < len.toNat
                  ∨ (kind = 0 ∧ (31 < dest.toNat ∨ 15 < chan.toNat ∨ 15 < retry.toNat))
                  ∨ (kind = 1 ∧ 15 < chan.toNat)
                  ∨ (kind = 2 ∧ (4095 < 256 * gHi.toNat + gLo.toNat ∨ 15 < retry.toNat))) →
                ∃ t, exec (.load p (index :: kind :: dest :: chan :: gHi :: gLo :: key :: retry :: hold
                    :: spare :: len :: payload)) s = .next t ∧ s.Answered t p .badArgument []))
    ∧ ∀ (b : Byte) (rest : List Byte),
        (3 < b.toNat → ∃ t, exec (.request p (b :: rest)) s = .next t ∧ s.Answered t p .badArgument [])
        ∧ ∀ k : MailboxIndex, b.toNat = k.val →
            ((s.mailbox ⟨p, k⟩).state ∉ [.loaded, .done] →
              ∃ t, exec (.request p (b :: rest)) s = .next t ∧ s.Answered t p .busy [])
            ∧ ∀ rec : MailRecord, (s.mailbox ⟨p, k⟩).state ∈ [.loaded, .done] →
                (s.mailbox ⟨p, k⟩).record = some rec → rec.kind ≠ .localHandOff →
                (s.member.lineState = .offline →
                  ∃ t, exec (.request p (b :: rest)) s = .next t ∧ s.Answered t p .offline [])
                ∧ (s.member.lineState ≠ .offline → rec.kind = .remote →
                    rec.dest = s.member.config.nodeAddress →
                  ∃ t, exec (.request p (b :: rest)) s = .next t ∧ s.Answered t p .badArgument [])

/-- R56, R57, R76, R84: an accepted REQUEST of a REMOTE or GROUP mailbox, or of a LOCAL one that holds off or stands behind
another reference to its channel: the progress fields, the hold-off, the end of the pending list; the mailbox leaves the
completion list, and nothing is decided. -/
def Obligations.RequestQueuesMailbox : Prop :=
  ∀ (s : State) (p : Port) (k : MailboxIndex) (rec : MailRecord) (rest : List Byte), s.InTransaction p →
    (s.mailbox ⟨p, k⟩).state = .loaded ∨ (s.mailbox ⟨p, k⟩).state = .done →
    (s.mailbox ⟨p, k⟩).record = some rec →
    ((rec.kind ≠ .localHandOff ∧ s.member.lineState ≠ .offline
        ∧ (rec.kind = .remote → rec.dest ≠ s.member.config.nodeAddress))
      ∨ (rec.kind = .localHandOff ∧ s.PendingListSound ∧ s.NoEligibleLocal
        ∧ (rec.holdOffRounds ≠ 0 ∨ ∃ r ∈ s.sched.refs, s.destination r = some (.localHandOff rec.channel)))) →
    ∃ t, exec (.request p (BitVec.ofNat 8 k.val :: rest)) s = .next t
      ∧ s.Answered t p .ok [.boxes, .completions, .refs]
      ∧ t.mailbox ⟨p, k⟩ = { record := some rec, state := .queued, outcome := none, cause := none, attempts := 0,
                             lateAbort := false, abortPending := false, holdOff := rec.holdOffRounds }
      ∧ (∀ r : Ref, r ≠ ⟨p, k⟩ → t.mailbox r = s.mailbox r)
      ∧ t.sched.refs = s.sched.refs ++ [⟨p, k⟩]
      ∧ t.completions p = (s.completions p).filter (· ≠ k)
      ∧ (∀ q, q ≠ p → t.completions q = s.completions q)

/-- R56, R62, R84, R85, R86: a REQUEST of a LOCAL mailbox without hold-off to a destination on which nothing waits is
decided in the same event: refused on a CLOSED or HALTED channel, waiting without room, delivered otherwise. -/
def Obligations.RequestDecidesFreeLocalMailbox : Prop :=
  ∀ (s : State) (p : Port) (k : MailboxIndex) (rec : MailRecord) (rest : List Byte), s.InTransaction p →
    s.PendingListSound → s.NoEligibleLocal →
    (s.mailbox ⟨p, k⟩).state = .loaded ∨ (s.mailbox ⟨p, k⟩).state = .done →
    (s.mailbox ⟨p, k⟩).record = some rec → rec.kind = .localHandOff → rec.holdOffRounds = 0 →
    (∀ r ∈ s.sched.refs, s.destination r ≠ some (.localHandOff rec.channel)) →
    ∃ t, exec (.request p (BitVec.ofNat 8 k.val :: rest)) s = .next t
      ∧ (t.engine p).lastResult = .ok ∧ (t.engine p).txn = none
      ∧ (t.mailbox ⟨p, k⟩).attempts = 0 ∧ (t.mailbox ⟨p, k⟩).record = some rec
      ∧ ((s.channel rec.channel).receiver = none →
          (t.mailbox ⟨p, k⟩).state = .done ∧ (t.mailbox ⟨p, k⟩).outcome = some .refused
            ∧ t.sched.refs = s.sched.refs ∧ (t.engine p).flags.txDone = true
            ∧ t.completions p = (s.completions p).filter (· ≠ k) ++ [k] ∧ t.store = s.store)
      ∧ (∀ q, (s.channel rec.channel).receiver = some q →
          ((s.queue q).full = true ∨ s.freeSlots = [] →
            (t.mailbox ⟨p, k⟩).state = .waitingSpace ∧ t.sched.refs = s.sched.refs ++ [⟨p, k⟩]
              ∧ t.store = s.store ∧ (t.queue q).records = (s.queue q).records)
          ∧ (∀ i, (s.queue q).full = false → s.LowestFree i →
            (t.mailbox ⟨p, k⟩).state = .done ∧ (t.mailbox ⟨p, k⟩).outcome = some .accepted
              ∧ t.sched.refs = s.sched.refs ∧ (t.engine p).flags.txDone = true
              ∧ t.completions p = (s.completions p).filter (· ≠ k) ++ [k]
              ∧ (t.queue q).records = (s.queue q).records
                  ++ [{ origin := .handOff p rec.channel, arrival := s.line.round,
                        lossesBefore := (s.queue q).pendingLosses, length := rec.payload.length, slot := i }]
              ∧ (t.queue q).pendingLosses = 0 ∧ (t.engine q).flags.rx = true
              ∧ t.store.holders[i] = s.store.holders[i] + 1
              ∧ (t.store.bytes[i]).toList.take rec.payload.length = rec.payload.take 64
              ∧ ∀ j, j ≠ i → t.store.bytes[j] = s.store.bytes[j]))
      ∧ s.OnlyChanges t [.boxes, .completions, .refs, .store, .queues, .engines]

/-- R63, R66, R68: ABORT with its checks in order: a waiting mailbox completes ABORTED at once, a SENDING one gets
abort-pending and its frame runs on. -/
def Obligations.AbortGivesUpTheMailbox : Prop :=
  ∀ (s : State) (p : Port), s.InTransaction p →
    ∀ (b : Byte) (rest : List Byte),
        (3 < b.toNat → ∃ t, exec (.abort p (b :: rest)) s = .next t ∧ s.Answered t p .badArgument [])
        ∧ ∀ k : MailboxIndex, b.toNat = k.val →
            ((s.mailbox ⟨p, k⟩).state ∈ [.vacant, .loaded, .done, .retiring] →
              ∃ t, exec (.abort p (b :: rest)) s = .next t ∧ s.Answered t p .notPending [])
            ∧ ((s.mailbox ⟨p, k⟩).state = .sending →
              ∃ t, exec (.abort p (b :: rest)) s = .next t ∧ s.Answered t p .ok [.boxes]
                ∧ t.mailbox ⟨p, k⟩ = { s.mailbox ⟨p, k⟩ with abortPending := true }
                ∧ ∀ r : Ref, r ≠ ⟨p, k⟩ → t.mailbox r = s.mailbox r)
            ∧ ((s.mailbox ⟨p, k⟩).state ∈ [.queued, .held, .waitingSpace] →
              ∃ t, exec (.abort p (b :: rest)) s = .next t
                ∧ (t.engine p).lastResult = .ok ∧ (t.engine p).txn = none
                ∧ s.Completed t ⟨p, k⟩ .aborted none
                ∧ (∀ r : Ref, r ≠ ⟨p, k⟩ → s.isLocal r = false → t.mailbox r = s.mailbox r)
                ∧ s.OnlyChanges t [.boxes, .completions, .refs, .store, .queues, .engines])

/-- R69: CLEAR with its checks in order. -/
def Obligations.ClearEmptiesTheMailbox : Prop :=
  ∀ (s : State) (p : Port), s.InTransaction p →
    (∃ t, exec (.clear p []) s = .next t ∧ s.Answered t p .truncated [])
    ∧ ∀ (b : Byte) (rest : List Byte),
        (3 < b.toNat → ∃ t, exec (.clear p (b :: rest)) s = .next t ∧ s.Answered t p .badArgument [])
        ∧ ∀ k : MailboxIndex, b.toNat = k.val →
            ((s.mailbox ⟨p, k⟩).state = .vacant →
              ∃ t, exec (.clear p (b :: rest)) s = .next t ∧ s.Answered t p .ok [])
            ∧ ((s.mailbox ⟨p, k⟩).state ∈ [.queued, .sending, .held, .waitingSpace, .retiring] →
              ∃ t, exec (.clear p (b :: rest)) s = .next t ∧ s.Answered t p .busy [])
            ∧ ((s.mailbox ⟨p, k⟩).state ∈ [.loaded, .done] →
              ∃ t, exec (.clear p (b :: rest)) s = .next t ∧ s.Answered t p .ok [.boxes, .completions]
                ∧ t.mailbox ⟨p, k⟩ = { record := none, state := .vacant, outcome := none, cause := none,
                                       attempts := 0, lateAbort := false, abortPending := false, holdOff := 0 }
                ∧ (∀ r : Ref, r ≠ ⟨p, k⟩ → t.mailbox r = s.mailbox r)
                ∧ t.completions p = (s.completions p).filter (· ≠ k)
                ∧ ∀ q, q ≠ p → t.completions q = s.completions q)

/-- R70, R170, R113, R126, R152: the data of READ_MAILBOX (seventeen bytes), READ_CHANNEL (two), READ_ENTRY (seven) and
READ_QUEUE (eight); an argument out of range is refused. -/
def Obligations.ReadCommandsReport : Prop :=
  ∀ (s : State) (p : Port) (arg : Byte), s.InTransaction p →
    (∃ t n, exec (.readSnapshot p .mailbox arg) s = .next t ∧ t.HasSnapshot p n
      ∧ (3 < arg.toNat → n.verdict = .badArgument ∧ n.data = [])
      ∧ ∀ k : MailboxIndex, arg.toNat = k.val →
          n.verdict = .valid
          ∧ (∀ rec, (s.mailbox ⟨p, k⟩).record = some rec →
              n.data = [(s.mailbox ⟨p, k⟩).state.code, outcomeCode (s.mailbox ⟨p, k⟩).outcome,
                causeCode (s.mailbox ⟨p, k⟩).cause, BitVec.ofNat 8 (s.mailbox ⟨p, k⟩).attempts,
                (if (s.mailbox ⟨p, k⟩).lateAbort then 1 else 0),
                (if (s.mailbox ⟨p, k⟩).abortPending then 1 else 0), (s.mailbox ⟨p, k⟩).holdOff,
                rec.kind.code, BitVec.ofNat 8 rec.dest.toNat, BitVec.ofNat 8 rec.channel.val,
                BitVec.ofNat 8 (rec.group.toNat / 256), BitVec.ofNat 8 rec.group.toNat, rec.key,
                BitVec.ofNat 8 rec.retryLimit.toNat, rec.holdOffRounds, 0,
                BitVec.ofNat 8 rec.payload.length])
          ∧ (s.mailbox ⟨p, k⟩ = Mailbox.vacant → n.data = List.replicate 17 0))
    ∧ (∃ t n, exec (.readSnapshot p .channel arg) s = .next t ∧ t.HasSnapshot p n
      ∧ (15 < arg.toNat → n.verdict = .badArgument ∧ n.data = [])
      ∧ ∀ c : ChannelNo, arg.toNat = c.val → n.verdict = .valid
          ∧ n.data = [(s.channel c).state.code, ownerByte (s.channel c).owner])
    ∧ (∃ t n, exec (.readSnapshot p .entry arg) s = .next t ∧ t.HasSnapshot p n
      ∧ (23 < arg.toNat → n.verdict = .badArgument ∧ n.data = [])
      ∧ ∀ e : EntryNo, arg.toNat = e.val → n.verdict = .valid
          ∧ n.data = [ownerByte (s.entry e).owner, (if (s.entry e).enabled then 1 else 0), (s.entry e).kind.code,
              BitVec.ofNat 8 ((s.entry e).first.toNat / 256), BitVec.ofNat 8 (s.entry e).first.toNat,
              BitVec.ofNat 8 ((s.entry e).second.toNat / 256), BitVec.ofNat 8 (s.entry e).second.toNat])
    ∧ ∃ t n, exec (.readSnapshot p .queue arg) s = .next t ∧ t.HasSnapshot p n ∧ n.verdict = .valid
      ∧ n.data =
          [BitVec.ofNat 8 (s.queue p).records.length, BitVec.ofNat 8 (s.queue p).capacity, (s.queue p).policy.code,
           BitVec.ofNat 8 (s.queue p).pendingLosses, (if (s.queue p).pin then 1 else 0)]
          ++ (match (s.queue p).records with
              | [] => [0xFF, 0xFF]
              | r :: _ => [r.origin.code, BitVec.ofNat 8 r.length])
          ++ [BitVec.ofNat 8 ((List.finRange 32).countP s.slotFree)]

/-- R67: READ_COMPLETION reports the oldest completion, or 0xFF and zeros with EMPTY, and a complete one removes the
entry reported. -/
def Obligations.ReadCompletionReportsAndRemovesOldest : Prop :=
  ∀ (s : State) (p : Port),
    (∀ k : Nat, s.InTransaction p → ∃ t, exec (.readCompletion p k) s = .next t ∧ s.Answered t p .truncated [])
    ∧ (∀ arg : Byte, s.InTransaction p →
      ∃ t n, exec (.readSnapshot p .completion arg) s = .next t ∧ t.HasSnapshot p n
        ∧ (s.completions p = [] →
            n.verdict = .empty ∧ ∀ j, n.data.getD j 0 = (if j = 0 then 0xFF else 0 : Byte))
        ∧ ∀ k rest, s.completions p = k :: rest →
            n.verdict = .valid ∧ n.effect = .dropCompletion k
            ∧ n.data = [BitVec.ofNat 8 k.val, outcomeCode (s.mailbox ⟨p, k⟩).outcome,
                causeCode (s.mailbox ⟨p, k⟩).cause, BitVec.ofNat 8 (s.mailbox ⟨p, k⟩).attempts,
                (if (s.mailbox ⟨p, k⟩).lateAbort then 1 else 0)])
    ∧ ∀ (n : Snapshot) (j : Nat), s.HasSnapshot p n → n.cmd = .completion →
        (n.verdict = .empty → ∃ t, exec (.readCompletion p j) s = .next t ∧ s.Answered t p .empty [])
        ∧ (n.verdict = .valid → j < n.data.length →
          ∃ t, exec (.readCompletion p j) s = .next t ∧ s.Answered t p .truncated [])
        ∧ ∀ k, n.verdict = .valid → n.data.length ≤ j → n.effect = .dropCompletion k →
          ∃ t, exec (.readCompletion p j) s = .next t ∧ s.Answered t p .ok [.completions]
            ∧ t.completions p = (s.completions p).filter (· ≠ k)
            ∧ ∀ q, q ≠ p → t.completions q = s.completions q

/-! ## Channels (07) -/

/-- R107, R108, R109: CLAIM with its checks in order. -/
def Obligations.ClaimTakesClosedChannel : Prop :=
  ∀ (s : State) (p : Port), s.InTransaction p → s.ChannelsSound →
    ∀ (a b : Byte) (rest : List Byte),
        (15 < a.toNat ∨ 1 < b.toNat →
          ∃ t, exec (.claim p (a :: b :: rest)) s = .next t ∧ s.Answered t p .badArgument [])
        ∧ ∀ c : ChannelNo, a.toNat = c.val → b.toNat ≤ 1 →
            (∀ q, q ≠ p → (s.channel c).owner = some q →
              ∃ t, exec (.claim p (a :: b :: rest)) s = .next t ∧ s.Answered t p .ownedElsewhere [])
            ∧ ((s.channel c).owner = some p →
              ∃ t, exec (.claim p (a :: b :: rest)) s = .next t ∧ s.Answered t p .ok [])
            ∧ ((s.channel c).state = .closed →
              ∃ t, exec (.claim p (a :: b :: rest)) s = .next t ∧ s.Answered t p .ok [.channels]
                ∧ t.channel c = { owner := some p, state := if b = 0 then .opened else .halted }
                ∧ (∀ d, d ≠ c → t.channel d = s.channel d)
                ∧ (s.SequenceSound → ∀ e ∈ t.seq.inbound, e.channel ≠ c))

/-- R108, R111, R112, R103: RELEASE_CHANNEL, HALT and OPEN act only for the owner of the channel. -/
def Obligations.OwnerCommandsChangeTheChannel : Prop :=
  ∀ (s : State) (p : Port), s.InTransaction p →
    ∀ (a : Byte) (rest : List Byte),
        (15 < a.toNat → ∀ i ∈ [Instr.releaseChannel p (a :: rest), .halt p (a :: rest), .openChannel p (a :: rest)],
          ∃ t, exec i s = .next t ∧ s.Answered t p .badArgument [])
        ∧ ∀ c : ChannelNo, a.toNat = c.val →
            ((s.channel c).owner ≠ some p →
              ∀ i ∈ [Instr.releaseChannel p (a :: rest), .halt p (a :: rest), .openChannel p (a :: rest)],
                ∃ t, exec i s = .next t ∧ s.Answered t p .notOwner [])
            ∧ ((s.channel c).owner = some p →
              (∃ t, exec (.releaseChannel p (a :: rest)) s = .next t ∧ s.Answered t p .ok [.channels, .seq]
                ∧ t.channel c = { owner := none, state := .closed }
                ∧ (∀ d, d ≠ c → t.channel d = s.channel d)
                ∧ t.seq.outbound = s.seq.outbound
                ∧ t.seq.inbound = s.seq.inbound.filter (fun e => e.channel ≠ c))
              ∧ (∃ t, exec (.halt p (a :: rest)) s = .next t ∧ s.Answered t p .ok [.channels]
                ∧ t.channel c = { owner := some p, state := .halted }
                ∧ ∀ d, d ≠ c → t.channel d = s.channel d)
              ∧ ∃ t, exec (.openChannel p (a :: rest)) s = .next t ∧ s.Answered t p .ok [.channels]
                ∧ t.channel c = { owner := some p, state := .opened }
                ∧ ∀ d, d ≠ c → t.channel d = s.channel d)

/-! ## Acceptance entries (08) -/

/-- R123, R122: an accepted SET_ENTRY: the second parameter of EXACT is held as 0, the value of MASKED is reduced to its
mask. -/
def Obligations.SetEntryWritesTheEntry : Prop :=
  ∀ (s : State) (p : Port) (e : EntryNo) (en kind fHi fLo sHi sLo : Byte) (rest : List Byte)
    (f g : GroupId) (k : EntryKind), s.InTransaction p →
    (s.entry e).owner = none ∨ (s.entry e).owner = some p →
    en.toNat ≤ 1 → k.code = kind → f.toNat = 256 * fHi.toNat + fLo.toNat →
    (k = .exact ∨ g.toNat = 256 * sHi.toNat + sLo.toNat) → (k = .span → f ≤ g) →
    ∃ t, exec (.setEntry p (BitVec.ofNat 8 e.val :: en :: kind :: fHi :: fLo :: sHi :: sLo :: rest)) s = .next t
      ∧ s.Answered t p .ok [.entries]
      ∧ t.entry e =
          { owner := some p, enabled := en != 0, kind := k,
            first := (match k with | .exact => f | .span => f | .masked => f &&& g),
            second := (match k with | .exact => 0 | .span => g | .masked => g) }
      ∧ ∀ j, j ≠ e → t.entry j = s.entry j

/-- R123: the refusals of SET_ENTRY, in the order of its checks. -/
def Obligations.SetEntryRefusals : Prop :=
  ∀ (s : State) (p : Port), s.InTransaction p →
    ∀ (a en kind fHi fLo sHi sLo : Byte) (rest : List Byte),
        (23 < a.toNat ∨ 1 < en.toNat ∨ 2 < kind.toNat ∨ 4095 < 256 * fHi.toNat + fLo.toNat
            ∨ (kind ≠ 0 ∧ 4095 < 256 * sHi.toNat + sLo.toNat)
            ∨ (kind = 1 ∧ 256 * sHi.toNat + sLo.toNat < 256 * fHi.toNat + fLo.toNat) →
          ∃ t, exec (.setEntry p (a :: en :: kind :: fHi :: fLo :: sHi :: sLo :: rest)) s = .next t
            ∧ s.Answered t p .badArgument [])
        ∧ ∀ (e : EntryNo) (q : Port), a.toNat = e.val → q ≠ p → (s.entry e).owner = some q →
            en.toNat ≤ 1 → kind.toNat ≤ 2 → 256 * fHi.toNat + fLo.toNat ≤ 4095 →
            (kind = 0 ∨ 256 * sHi.toNat + sLo.toNat ≤ 4095) →
            (kind ≠ 1 ∨ 256 * fHi.toNat + fLo.toNat ≤ 256 * sHi.toNat + sLo.toNat) →
            ∃ t, exec (.setEntry p (a :: en :: kind :: fHi :: fLo :: sHi :: sLo :: rest)) s = .next t
              ∧ s.Answered t p .ownedElsewhere []

/-- R125, R121: FREE_ENTRY with its checks in order. -/
def Obligations.FreeEntryFreesOwnEntry : Prop :=
  ∀ (s : State) (p : Port), s.InTransaction p →
    (∃ t, exec (.freeEntry p []) s = .next t ∧ s.Answered t p .truncated [])
    ∧ ∀ (a : Byte) (rest : List Byte),
        (23 < a.toNat → ∃ t, exec (.freeEntry p (a :: rest)) s = .next t ∧ s.Answered t p .badArgument [])
        ∧ ∀ e : EntryNo, a.toNat = e.val →
            ((s.entry e).owner ≠ some p →
              ∃ t, exec (.freeEntry p (a :: rest)) s = .next t ∧ s.Answered t p .notOwner [])
            ∧ ((s.entry e).owner = some p →
              ∃ t, exec (.freeEntry p (a :: rest)) s = .next t ∧ s.Answered t p .ok [.entries]
                ∧ t.entry e = { owner := none, enabled := false, kind := .exact, first := 0, second := 0 }
                ∧ ∀ j, j ≠ e → t.entry j = s.entry j)

/-- R122, R127: which ids an entry admits, and the match of a port: kind before index, its own entries only. -/
def Obligations.EntryMatchGoesByKindThenIndex : Prop :=
  (∀ (e : Entry) (p : Port) (g : GroupId),
      e.admitsFor p g = true
        ↔ e.owner = some p ∧ e.enabled = true
          ∧ (e.kind = .exact → g = e.first)
          ∧ (e.kind = .span → e.first.toNat ≤ g.toNat ∧ g.toNat ≤ e.second.toNat)
          ∧ (e.kind = .masked → ∀ b, b < 12 → e.second.getLsbD b = true → g.getLsbD b = e.first.getLsbD b))
    ∧ ∀ (s : State) (p : Port) (g : GroupId),
        (s.groupMatch p g = none ↔ ∀ i, (s.entry i).admitsFor p g = false)
        ∧ ∀ i, s.groupMatch p g = some i →
            (s.entry i).admitsFor p g = true
            ∧ ∀ j, (s.entry j).admitsFor p g = true →
                (s.entry i).kind.code.toNat < (s.entry j).kind.code.toNat
                  ∨ ((s.entry i).kind = (s.entry j).kind ∧ i ≤ j)

/-! ## Receive queues (09) -/

/-- R148, R84, R85, R87, R88: SET_QUEUE with its checks in order; with no LOCAL mailbox pending the settings alone change;
a raised capacity lets a LOCAL mailbox that waits, the only one pending, be decided again. -/
def Obligations.SetQueueWritesSettings : Prop :=
  ∀ (s : State) (p : Port), s.InTransaction p →
    ∀ (a b : Byte) (rest : List Byte),
        (a = 0 ∨ 16 < a.toNat ∨ 1 < b.toNat →
          ∃ t, exec (.setQueue p (a :: b :: rest)) s = .next t ∧ s.Answered t p .badArgument [])
        ∧ (a ≠ 0 → a.toNat ≤ 16 → b.toNat ≤ 1 →
            (a.toNat < (s.queue p).records.length →
              ∃ t, exec (.setQueue p (a :: b :: rest)) s = .next t ∧ s.Answered t p .busy [])
            ∧ ((s.queue p).records.length ≤ a.toNat →
              ∃ t, exec (.setQueue p (a :: b :: rest)) s = .next t
                ∧ (t.engine p).lastResult = .ok ∧ (t.engine p).txn = none
                ∧ (t.queue p).capacity = a.toNat
                ∧ (t.queue p).policy = (if b = 0 then .dropNew else .displace)
                ∧ (t.queue p).pin = (s.queue p).pin
                ∧ (s.queue p).records <+: (t.queue p).records
                ∧ (∀ q, q ≠ p → (t.queue q).capacity = (s.queue q).capacity
                    ∧ (t.queue q).policy = (s.queue q).policy
                    ∧ (s.queue q).records <+: (t.queue q).records)
                ∧ s.OnlyChanges t [.boxes, .completions, .refs, .store, .queues, .engines]
                ∧ (s.NoLocalPending ∨ a.toNat ≤ (s.queue p).capacity →
                    t.queue p = { s.queue p with capacity := a.toNat, txnPin := false,
                                                  policy := if b = 0 then .dropNew else .displace }
                    ∧ (∀ q, q ≠ p → t.queue q = s.queue q)
                    ∧ s.OnlyChanges t [.queues, .engines])
                ∧ (∀ (w : Ref) (rec : MailRecord) (u : State), (s.queue p).capacity < a.toNat →
                    s.OnlyLocal w rec → (s.mailbox w).state = .waitingSpace →
                    s.OnlyChanges u [.queues] → (∀ q, q ≠ p → u.queue q = s.queue q) →
                    u.queue p = { s.queue p with capacity := a.toNat, txnPin := false,
                                                  policy := if b = 0 then .dropNew else .displace } →
                    u.LocalDecided t w rec)))

/-- R149, R150, R171: what PEEK and TAKE return of the head; 0xFF and zeros for an empty queue. -/
def Obligations.PeekAndTakeReportTheHead : Prop :=
  ∀ (s : State) (p : Port) (cmd : ReadCommand) (arg : Byte), s.InTransaction p → cmd = .peek ∨ cmd = .take →
    ∃ t n, exec (.readSnapshot p cmd arg) s = .next t ∧ t.HasSnapshot p n
      ∧ ((s.queue p).records = [] →
          n.verdict = .empty ∧ ∀ j, n.data.getD j 0 = (if j = 0 then 0xFF else 0 : Byte))
      ∧ ∀ r rest, (s.queue p).records = r :: rest →
          n.verdict = .valid
          ∧ n.data =
              (match r.origin with
               | .lineAddressed m c =>
                 [0, BitVec.ofNat 8 m.toNat, 0xFF, BitVec.ofNat 8 c.val, 0xFF, 0xFF, 0xFF]
               | .lineGroup m g e =>
                 [1, BitVec.ofNat 8 m.toNat, 0xFF, 0xFF, BitVec.ofNat 8 (g.toNat / 256), BitVec.ofNat 8 g.toNat,
                  BitVec.ofNat 8 e.val]
               | .echo q g e =>
                 [2, 0xFF, BitVec.ofNat 8 q.val, 0xFF, BitVec.ofNat 8 (g.toNat / 256), BitVec.ofNat 8 g.toNat,
                  BitVec.ofNat 8 e.val]
               | .handOff q c =>
                 [3, 0xFF, BitVec.ofNat 8 q.val, BitVec.ofNat 8 c.val, 0xFF, 0xFF, 0xFF])
              ++ [r.arrival, BitVec.ofNat 8 r.lossesBefore, BitVec.ofNat 8 r.length]
              ++ (s.store.bytes[r.slot]).toList.take r.length

/-- R149, R146, R157: PEEK at release: a complete one sets the persistent pin; the transaction pin is released in every
case, and nothing else changes. -/
def Obligations.PeekPinsTheHead : Prop :=
  ∀ (s : State) (p : Port) (j : Nat),
    ∀ n : Snapshot, s.HasSnapshot p n → n.cmd = .peek →
        (n.verdict = .empty → ∃ t, exec (.peek p j) s = .next t ∧ s.Answered t p .empty [])
        ∧ (n.verdict = .valid → j < n.data.length →
          ∃ t, exec (.peek p j) s = .next t ∧ s.Answered t p .truncated [])
        ∧ (n.verdict = .valid → n.data.length ≤ j → (s.queue p).records ≠ [] →
          ∃ t, exec (.peek p j) s = .next t
            ∧ t.engine p = (s.engine p).answering .ok
            ∧ t.queue p = { s.queue p with pin := true, txnPin := false }
            ∧ (∀ q, q ≠ p → t.engine q = s.engine q ∧ t.queue q = s.queue q)
            ∧ s.OnlyChanges t [.engines, .queues])

/-- R150, R151, R147, R145, R84, R85, R87, R88: a complete TAKE and a RELEASE remove the head: its slot loses a holder, the persistent pin is
cleared, RX follows the queue, the records behind keep their order; short or empty ones remove nothing. With no LOCAL
mailbox pending nothing else changes; one that waits, the only one pending, is decided again on the room that the removal
leaves. -/
def Obligations.TakeAndReleaseRemoveTheHead : Prop :=
  ∀ (s : State) (p : Port),
    (∀ (j : Nat) (n : Snapshot), s.HasSnapshot p n → n.cmd = .take →
        (n.verdict = .empty → ∃ t, exec (.take p j) s = .next t ∧ s.Answered t p .empty [])
        ∧ (n.verdict = .valid → j < n.data.length →
          ∃ t, exec (.take p j) s = .next t ∧ s.Answered t p .truncated []))
    ∧ (s.InTransaction p → ∃ t, exec (.release p []) s = .next t ∧ s.Answered t p .truncated [])
    ∧ (s.InTransaction p →
        (s.queue p).records = [] → ∀ b rest,
          ∃ t, exec (.release p (b :: rest)) s = .next t ∧ s.Answered t p .empty [])
    ∧ ∀ (i : Instr) (r : QueueRecord) (others : List QueueRecord), (s.queue p).records = r :: others →
        ((∃ j n, i = .take p j ∧ s.HasSnapshot p n ∧ n.cmd = .take ∧ n.verdict = .valid ∧ n.data.length ≤ j)
          ∨ ((∃ b rest, i = .release p (b :: rest)) ∧ s.InTransaction p)) →
        ∃ t, exec i s = .next t
          ∧ (t.engine p).lastResult = .ok ∧ (t.engine p).txn = none
          ∧ others <+: (t.queue p).records ∧ (t.queue p).pin = false ∧ (t.queue p).txnPin = false
          ∧ (t.engine p).flags.rx = !(t.queue p).records.isEmpty
          ∧ (∀ q, q ≠ p → (s.queue q).records <+: (t.queue q).records)
          ∧ s.OnlyChanges t [.boxes, .completions, .refs, .store, .queues, .engines]
          ∧ (s.NoLocalPending →
              t.queue p = { s.queue p with records := others, pin := false, txnPin := false }
              ∧ (∀ q, q ≠ p → t.engine q = s.engine q ∧ t.queue q = s.queue q)
              ∧ t.store = { s.store with
                  holders := s.store.holders.set r.slot (s.store.holders[r.slot] - 1) }
              ∧ s.OnlyChanges t [.store, .queues, .engines])
          ∧ (∀ (w : Ref) (rec : MailRecord) (u : State),
              s.OnlyLocal w rec → (s.mailbox w).state = .waitingSpace →
              s.OnlyChanges u [.store, .queues] → (∀ q, q ≠ p → u.queue q = s.queue q) →
              u.queue p = { s.queue p with records := others, pin := false, txnPin := false } →
              u.store = { s.store with
                holders := s.store.holders.set r.slot (s.store.holders[r.slot] - 1) } →
              u.LocalDecided t w rec)

/-- R141, R142, R143, R144: an append of group delivery or echo: with room the record is taken with the pending losses;
a full queue under DROP_NEW, or with a pinned tail, counts one loss; a full queue under DISPLACE gives its tail up to
the new record, which carries all the losses. LOSS is set on a rise from 0 and at a displacement. -/
def Obligations.AppendTakesCountsOrDisplaces : Prop :=
  ∀ (s : State) (p : Port) (d : Delivery), (s.queue p).Sound →
    ((s.queue p).full = false →
      (s.offer p d).space = false
      ∧ ((s.offer p d).state.queue p) = { s.queue p with
          records := (s.queue p).records ++ [d.record (s.queue p).pendingLosses], pendingLosses := 0 }
      ∧ ((s.offer p d).state.engine p).flags = { (s.engine p).flags with rx := true }
      ∧ (s.offer p d).state.store.holders[d.slot] = s.store.holders[d.slot] + 1)
    ∧ ((s.queue p).full = true → (s.queue p).policy = .dropNew ∨ (s.queue p).tailPinned = true →
      (s.offer p d).space = false
      ∧ ((s.offer p d).state.queue p)
          = { s.queue p with pendingLosses := min 255 ((s.queue p).pendingLosses + 1) }
      ∧ ((s.offer p d).state.engine p).flags
          = { (s.engine p).flags with loss := (s.engine p).flags.loss || (s.queue p).pendingLosses == 0 }
      ∧ (s.offer p d).state.store = s.store)
    ∧ (∀ front tail, (s.queue p).full = true → (s.queue p).policy = .displace → (s.queue p).tailPinned = false →
        (s.queue p).records = front ++ [tail] → d.slot ≠ tail.slot →
      (s.offer p d).space = true
      ∧ ((s.offer p d).state.queue p) = { s.queue p with
          records := front ++ [d.record (min 255 ((s.queue p).pendingLosses + (1 + tail.lossesBefore)))],
          pendingLosses := 0 }
      ∧ ((s.offer p d).state.engine p).flags = { (s.engine p).flags with rx := true, loss := true }
      ∧ (s.offer p d).state.store.holders[tail.slot] = s.store.holders[tail.slot] - 1
      ∧ (s.offer p d).state.store.holders[d.slot] = s.store.holders[d.slot] + 1)
    ∧ (∀ q, q ≠ p → (s.offer p d).state.queue q = s.queue q ∧ (s.offer p d).state.engine q = s.engine q)
    ∧ s.OnlyChanges (s.offer p d).state [.store, .queues, .engines]

/-! ## Turns (01, 05) -/

/-- R6, R7, R8, R78: a turn begins with the line idle: the turn counter advances modulo 32, the round number at the wrap;
a turn that is not the own one, or in which the node may not transmit or has nothing eligible, sends nothing. At turn 0
of a node with address 0 the round boundary and the own turn are taken in one of the two orders (R83, log 7). A first turn
that is due after sync by the idle count (log 27) is turn 0 without a round boundary (R12). -/
def Obligations.TurnBeginsAdvancesTheCounter : Prop :=
  ∀ s : State, s.member.lineState = .active ∨ s.member.lineState = .leaving → s.line.activity = .idle →
    ∀ silent : Prop,
    (silent ↔ s.member.lineState ≠ .active ∨ s.mode ≠ some .full
      ∨ ¬ (s.fault.state = .engaged ∨ s.fault.state = .guarded ∧ s.line.round.toNat % 2 = 0)
      ∨ ∀ r ∈ s.sched.refs, s.eligible r = false) →
    (s.line.firstTurnDue = false → s.line.turn ≠ 31 → s.line.turn + 1 ≠ s.member.config.nodeAddress ∨ silent →
        ∃ t, exec .turnBegins s = .next t
          ∧ t.line = { s.line with turn := s.line.turn + 1, betweenTurns := false } ∧ s.OnlyChanges t [.line])
    ∧ (s.line.firstTurnDue = false → s.line.turn = 31 → s.member.config.nodeAddress ≠ 0 →
        ∃ t, exec .turnBegins s = .next t
          ∧ t.line = { s.line with turn := 0, round := s.line.round + 1, betweenTurns := false }
          ∧ s.OnlyChanges t [.line, .boxes, .refs, .completions, .store, .queues, .engines, .fault])
    ∧ (s.line.firstTurnDue = false → s.line.turn = 31 → s.member.config.nodeAddress = 0 →
        ∃ t, exec .turnBegins s = .next t
          ∧ (t = s.advanceTurn.drawn.roundBoundary.ownTurnBegins
              ∨ t = s.advanceTurn.drawn.ownTurnBegins.roundBoundary)
          ∧ t.line.turn = 0 ∧ t.line.round = s.line.round + 1)
    ∧ (s.line.firstTurnDue = true → s.member.config.nodeAddress ≠ 0 ∨ silent →
        ∃ t, exec .turnBegins s = .next t
          ∧ t.line = { s.line with turn := 0, betweenTurns := false, firstTurnDue := false }
          ∧ s.OnlyChanges t [.line])

/-- R78, R79, R80, R81, R82, R58, R93, R13: at the own turn of an ACTIVE, FULL node that confinement lets send, the
mailbox that the share policy names is handed on: the lowest key of all under KEY; under ROTATE the first port from the
pointer on with an eligible mailbox, by its transmit order, and the pointer moves past that port. The own turn is the next
one, or the first turn that is due after sync by the idle count (log 27). -/
def Obligations.OwnTurnSendsTheChosenFrame : Prop :=
  ∀ (s : State) (r : Ref) (rec : MailRecord) (own : NodeAddr),
    s.member.lineState = .active → s.mode = some .full → s.line.activity = .idle →
    s.fault.state = .engaged ∨ s.fault.state = .guarded ∧ s.line.round.toNat % 2 = 0 →
    own = s.member.config.nodeAddress →
    (s.line.firstTurnDue = false ∧ s.line.turn ≠ 31 ∧ own = s.line.turn + 1)
      ∨ (s.line.firstTurnDue = true ∧ own = 0) →
    r ∈ s.sched.refs → s.eligible r = true → (s.mailbox r).record = some rec →
    (s.member.config.share = .key → s.LowestKeyOf (fun _ => True) r →
        ∃ t, exec .turnBegins s = .next t ∧ s.HandsFrame t r rec
          ∧ t.line.turn = own ∧ t.line.round = s.line.round ∧ t.line.firstTurnDue = false
          ∧ s.OnlyChanges t [.line, .boxes, .seq])
    ∧ (s.member.config.share = .rotate →
        r.port = s.sched.rotation
          ∨ (r.port = s.sched.rotation + 1 ∧ s.eligiblesOf s.sched.rotation = [])
          ∨ (r.port = s.sched.rotation + 2 ∧ s.eligiblesOf s.sched.rotation = []
              ∧ s.eligiblesOf (s.sched.rotation + 1) = []) →
        (s.order r.port = .key → s.LowestKeyOf (fun q => q.port = r.port) r) →
        (s.order r.port = .arrival → ∀ q ∈ s.earlier r, q.port = r.port → s.eligible q = false) →
        ∃ t, exec .turnBegins s = .next t ∧ s.HandsFrame t r rec
          ∧ t.line.turn = own ∧ t.line.round = s.line.round ∧ t.line.firstTurnDue = false
          ∧ t.sched.rotation = r.port + 1
          ∧ s.OnlyChanges t [.line, .boxes, .seq, .rotation])

/-- R57, R61, R62, R84, R85, R44, R45, R46, R51: what the round boundary of a wrap does to mailboxes and to fault
confinement; a LOCAL mailbox whose hold-off it brings to 0, the only one pending and not blocked, is decided in the same
event. -/
def Obligations.RoundBoundaryServesMailboxesAndSilence : Prop :=
  ∀ s : State, s.member.lineState = .active → s.line.activity = .idle → s.line.turn = 31 →
    s.line.firstTurnDue = false → s.member.config.nodeAddress ≠ 0 →
    ∃ t, exec .turnBegins s = .next t
      ∧ (∀ r : Ref, s.isLocal r = false ∨ (s.mailbox r).state ∉ [.queued, .held]
            ∨ ((s.mailbox r).state = .queued ∧ 2 ≤ (s.mailbox r).holdOff.toNat) →
          t.mailbox r =
            (match (s.mailbox r).state with
             | .queued => { s.mailbox r with holdOff := BitVec.ofNat 8 ((s.mailbox r).holdOff.toNat - 1) }
             | .held => { s.mailbox r with state := .queued, holdOff := 0 }
             | _ => s.mailbox r))
      ∧ (∀ (w : Ref) (rec : MailRecord) (u : State),
          s.OnlyLocal w rec → (s.mailbox w).state = .queued → (s.mailbox w).holdOff = 1 → s.blocked w = false →
          s.OnlyChanges u [.line, .boxes] → u.line.round = s.line.round + 1 →
          u.mailbox w = { s.mailbox w with holdOff := 0 } → u.LocalDecided t w rec)
      ∧ (s.fault.state ≠ .silenced → t.fault = { s.fault with spoiled := false })
      ∧ (s.fault.state = .silenced → s.fault.spoiled = true →
          t.fault = { s.fault with cleanRounds := 0, spoiled := false })
      ∧ (s.fault.state = .silenced → s.fault.spoiled = false → s.fault.cleanRounds < 3 →
          t.fault = { s.fault with cleanRounds := s.fault.cleanRounds + 1 })
      ∧ (s.fault.state = .silenced → s.fault.spoiled = false → s.fault.cleanRounds = 3 →
          t.fault = (match s.member.config.recovery with
            | .auto => { window := [], state := .engaged, cleanRounds := 0, spoiled := false }
            | .manual => { s.fault with state := .readyToResume, cleanRounds := 4 }))
      ∧ s.LineFollows t (t.fault.state ≠ s.fault.state)

/-- R92, R93, R95, R98, R99, R101: the use of either sequence table: the entry of the pair goes to the front, created if
there is none; a full table first loses its least recently used entry, in the outbound table one that is not busy; and
the sequence check of a frame tells new from duplicate. -/
def Obligations.SequenceTablesByUse : Prop :=
  ∀ (s : State) (m : NodeAddr) (c : ChannelNo), s.SequenceSound →
    (∀ e ∈ s.seq.outbound, e.node = m → e.channel = c →
        (s.useOutbound m c).seq.outbound = e :: s.seq.outbound.filter (· ≠ e))
    ∧ ((∀ e ∈ s.seq.outbound, ¬ (e.node = m ∧ e.channel = c)) →
        (s.seq.outbound.length < 32 →
          (s.useOutbound m c).seq.outbound
            = { node := m, channel := c, nextBit := false, fresh := true } :: s.seq.outbound)
        ∧ ∀ (front back : List OutEntry) (e : OutEntry), 32 ≤ s.seq.outbound.length →
            s.seq.outbound = front ++ e :: back → s.busyEntry e = false → (∀ x ∈ back, s.busyEntry x = true) →
            (s.useOutbound m c).seq.outbound
              = { node := m, channel := c, nextBit := false, fresh := true } :: (front ++ back))
    ∧ ∀ (bit fresh : Bool),
        (∀ e ∈ s.seq.inbound, e.node = m → e.channel = c →
          (s.sequenceCheck m c bit fresh).1.seq.inbound
              = { e with expected := if fresh then bit else e.expected } :: s.seq.inbound.filter (· ≠ e)
            ∧ ((s.sequenceCheck m c bit fresh).2 = true ↔ fresh = false ∧ e.expected ≠ bit))
        ∧ ((∀ e ∈ s.seq.inbound, ¬ (e.node = m ∧ e.channel = c)) →
          (s.sequenceCheck m c bit fresh).2 = false
            ∧ (s.sequenceCheck m c bit fresh).1.seq.inbound
                = { node := m, channel := c, expected := bit }
                  :: (if s.seq.inbound.length = 32 then s.seq.inbound.dropLast else s.seq.inbound))
        ∧ (s.sequenceCheck m c bit fresh).1.seq.outbound = s.seq.outbound

/-! ## Receptions (01, 07, 08, 09) -/

/-- R1, R6, R11, R12, R19, R26: a start bit on the sampled, idle line begins a reception; inside an interframe space it
begins the next turn too, and no own turn; off the line, or while the line is taken as busy, it is ignored. A first
turn that is due after sync (log 27) begins there as turn 0. That the sync idle count moves at its events only is the
model's choice (log 15). -/
def Obligations.ActivityBeginsAReception : Prop :=
  ∀ s : State,
    (s.member.lineState = .offline ∨ s.line.busyUntilIdle = true → exec .activityBegins s = .next s)
    ∧ (s.member.lineState ≠ .offline → s.line.busyUntilIdle = false → s.line.activity = .idle →
        ∀ l : LineUnit,
        l = { s.line with
              activity := .receiving,
              syncIdle := if s.member.lineState = .syncing then 0 else s.line.syncIdle,
              reception := some { phase := .opening, chars := [],
                                  activeAtStart := s.member.lineState == .active } } →
        (s.member.lineState = .syncing ∨ s.line.firstTurnDue = false ∧ s.line.betweenTurns = false →
          ∃ t, exec .activityBegins s = .next t ∧ t.line = l ∧ s.OnlyChanges t [.line])
        ∧ (s.member.lineState ≠ .syncing → s.line.firstTurnDue = true →
          ∃ t, exec .activityBegins s = .next t
            ∧ t.line = { l with turn := 0, betweenTurns := false, firstTurnDue := false }
            ∧ s.OnlyChanges t [.line])
        ∧ (s.member.lineState ≠ .syncing → s.line.firstTurnDue = false → s.line.betweenTurns = true →
            s.line.turn ≠ 31 →
          ∃ t, exec .activityBegins s = .next t
            ∧ t.line = { l with turn := s.line.turn + 1, betweenTurns := false } ∧ s.OnlyChanges t [.line])
        ∧ (s.member.lineState ≠ .syncing → s.line.firstTurnDue = false → s.line.betweenTurns = true →
            s.line.turn = 31 →
          ∃ t, exec .activityBegins s = .next t
            ∧ t.line = { l with turn := 0, round := s.line.round + 1, betweenTurns := false }
            ∧ s.OnlyChanges t [.line, .boxes, .refs, .completions, .store, .queues, .engines, .fault]))

/-- R5 (check 1), R9, R10, R17, R20, R44, R136: header byte 0 completes: a disturbance is only followed; the own address
is a foreign use, a slip without a reception; another sender out of step is a slip that sets the turn counter and, if
lower, takes a round boundary; then frame start takes the lowest free slot in ACTIVE, or none. -/
def Obligations.TurnCheckDetectsSlipsAndStartsFrames : Prop :=
  ∀ (s : State) (rx : Reception) (chars : List RxChar) (pre h0 : RxChar) (a : NodeAddr) (bad : Prop),
    s.Receives rx → rx.phase = .opening → rx.chars ++ chars = [pre, h0] →
    a.toNat = h0.value.toNat / 8 →
    (bad ↔ pre.value ≠ 0x55 ∨ pre.framingError = true ∨ h0.value.toNat % 4 ≠ 0 ∨ h0.framingError = true) →
    ∃ t, exec (.turnCheck chars) s = .next t
      ∧ t.line.activity = .receiving ∧ t.line.checkErrors = s.line.checkErrors ∧ t.line.own = s.line.own
      ∧ (bad → t.line = { s.line with
              reception := some { phase := .disturbance, chars := [pre, h0],
                                  activeAtStart := s.member.lineState == .active } }
          ∧ s.OnlyChanges t [.line])
      ∧ (¬ bad → a = s.member.config.nodeAddress →
          t.line.turnSlips.toNat = min 65535 (s.line.turnSlips.toNat + 1)
          ∧ t.line.reception.map (·.phase) = some .foreign
          ∧ t.line.holdFlag = s.line.holdFlag ∧ t.store.rxSlot = s.store.rxSlot
          ∧ (s.member.lineState = .syncing →
              t.line.turn = s.line.turn ∧ t.line.round = s.line.round
              ∧ t.fault = { s.fault with spoiled := true })
          ∧ (s.member.lineState = .active ∨ s.member.lineState = .leaving →
              t.line.turn = a ∧ t.line.round = s.line.round + (if a < s.line.turn then 1 else 0)
              ∧ t.fault.spoiled = !(a < s.line.turn)))
      ∧ (¬ bad → a ≠ s.member.config.nodeAddress →
          t.line.reception = some { phase := .frame, chars := [pre, h0],
                                    activeAtStart := s.member.lineState == .active }
          ∧ (s.member.lineState ≠ .active → t.line.holdFlag = false ∧ t.store.rxSlot = s.store.rxSlot)
          ∧ (a = s.line.turn ∨ s.member.lineState = .syncing →
              t.line.turn = s.line.turn ∧ t.line.turnSlips = s.line.turnSlips ∧ t.fault = s.fault
              ∧ s.OnlyChanges t [.line, .store])
          ∧ (a ≠ s.line.turn → s.member.lineState = .active ∨ s.member.lineState = .leaving →
              t.line.turnSlips.toNat = min 65535 (s.line.turnSlips.toNat + 1)
              ∧ t.line.turn = a ∧ t.line.round = s.line.round + (if a < s.line.turn then 1 else 0)
              ∧ t.fault.spoiled = !(a < s.line.turn))
          ∧ (s.member.lineState = .active → s.line.turn ≤ a →
              (∀ i, s.LowestFree i → t.store.rxSlot = some i ∧ t.line.holdFlag = true)
              ∧ (s.freeSlots = [] → t.store.rxSlot = s.store.rxSlot ∧ t.line.holdFlag = false)))

/-- R5, R18, R20, R44, R137: a reception end that is not GOOD counts a CHECK_ERROR, spoils the round and returns the slot;
nobody is answered and nothing is delivered. R115, R29: nor is anybody answered or anything delivered for a GOOD ADDRESSED
frame to another node, or for a GOOD frame of either kind that did not begin in ACTIVE, also after a return from LEAVING.
R12, R27: in SYNCING a GOOD one from another node establishes sync at its sender's turn. That a GROUP frame's line time ends in this row is the model's reading (log 14). -/
def Obligations.ReceptionEndCountsErrorsAndSyncs : Prop :=
  ∀ (s : State) (rx : Reception) (rest : List RxChar) (v : Classified),
    s.Receives rx → v = classify (rx.chars ++ rest) → rx.phase.endsAs v = true →
    ∃ t, exec (.receptionEnd rest) s = .next t
      ∧ t.line.holdFlag = false ∧ t.store.rxSlot = none ∧ t.line.turnSlips = s.line.turnSlips
      ∧ t.line.round = s.line.round ∧ t.line.own = s.line.own
      ∧ (v.atCheckByte = true → v.h0.getLsbD 2 = true → t.line.activity = .idle ∧ t.line.reception = none)
      ∧ (v.atCheckByte = false ∨ v.h0.getLsbD 2 = false →
          t.line.activity = .receiving ∧ t.line.reception = some { rx with phase := .ended })
      ∧ (v.cls ≠ .good →
          t.line.checkErrors.toNat
              = (if v.cls = .checkError then min 65535 (s.line.checkErrors.toNat + 1)
                 else s.line.checkErrors.toNat)
          ∧ t.fault = { s.fault with spoiled := true }
          ∧ t.line.reply = s.line.reply ∧ t.line.turn = s.line.turn
          ∧ s.OnlyChanges t [.line, .fault, .store, .boxes, .refs, .completions, .queues, .engines]
          ∧ (s.NoLocalPending → s.OnlyChanges t [.line, .fault, .store]))
      ∧ (v.cls = .good → t.line.checkErrors = s.line.checkErrors)
      ∧ (v.cls = .good →
          rx.activeAtStart = false
            ∨ (∃ d c b fr, v.body = .addressed d c b fr ∧ d ≠ s.member.config.nodeAddress) →
          t.line.reply = s.line.reply ∧ t.seq = s.seq
          ∧ (s.NoLocalPending → t.queues = s.queues ∧ t.store.holders = s.store.holders
              ∧ ∀ q, (t.engine q).flags = { (s.engine q).flags with line := (t.engine q).flags.line })
          ∧ (s.member.lineState ≠ .syncing →
              t.line.turn = s.line.turn
              ∧ s.OnlyChanges t [.line, .store, .boxes, .refs, .completions, .queues, .engines]
              ∧ (s.NoLocalPending → s.OnlyChanges t [.line, .store])))
      ∧ (v.cls = .good → s.member.lineState = .syncing → rx.activeAtStart = false →
          v.sender ≠ s.member.config.nodeAddress →
          t.member.lineState = .active ∧ t.line.turn = v.sender ∧ t.fault = { s.fault with spoiled := true }
          ∧ t.line.reply = s.line.reply ∧ t.seq = s.seq
          ∧ (∀ q, (t.engine q).flags.line = true))
      ∧ (v.cls = .good → s.member.lineState = .syncing → rx.activeAtStart = false →
          v.sender = s.member.config.nodeAddress → t.member.lineState = .syncing ∧ t.line.turn = s.line.turn)

/-- R115, R116, R117, R118, R98, R99, R135, R137: the reply decision for a GOOD frame to the own address that was received
in ACTIVE, check by check: the reply code, the inbound table, the record delivered, the slot; every other slot keeps its
bytes. -/
def Obligations.ReplyDecisionAnswersAndDelivers : Prop :=
  ∀ (s : State) (rx : Reception) (rest : List RxChar) (v : Classified) (c : ChannelNo) (bit fresh : Bool),
    s.Receives rx → rx.phase = .frame → rx.activeAtStart = true → s.member.lineState = .active →
    v = classify (rx.chars ++ rest) → v.cls = .good →
    v.body = .addressed s.member.config.nodeAddress c bit fresh →
    ∃ t, exec (.receptionEnd rest) s = .next t
      ∧ t.line.activity = .receiving ∧ t.store.rxSlot = none ∧ t.line.holdFlag = false
      ∧ t.fault = s.fault ∧ t.seq.outbound = s.seq.outbound
      ∧ (s.NoLocalPending → ∀ j, s.heldSlot ≠ some j → t.store.bytes[j] = s.store.bytes[j])
      ∧ (s.mode = some .listen ∨ s.fault.state = .silenced ∨ s.fault.state = .readyToResume →
          t.line.reply = none ∧ t.seq = s.seq ∧ (s.NoLocalPending → t.queues = s.queues))
      ∧ (s.mode ≠ some .listen → s.fault.state = .engaged ∨ s.fault.state = .guarded →
          ((s.channel c).state ≠ .opened → t.line.reply = some .refuse ∧ t.seq = s.seq
              ∧ (s.NoLocalPending → t.queues = s.queues))
          ∧ ∀ p, (s.channel c) = { owner := some p, state := .opened } →
              ((s.sequenceCheck v.sender c bit fresh).2 = true →
                t.line.reply = some .accept ∧ t.seq = (s.sequenceCheck v.sender c bit fresh).1.seq
                  ∧ (s.NoLocalPending → t.queues = s.queues))
              ∧ ((s.sequenceCheck v.sender c bit fresh).2 = false →
                  s.heldSlot = none ∨ (s.queue p).full = true →
                t.line.reply = some .defer ∧ t.seq = (s.sequenceCheck v.sender c bit fresh).1.seq
                  ∧ (s.NoLocalPending → t.queues = s.queues))
              ∧ ∀ i, (s.sequenceCheck v.sender c bit fresh).2 = false → s.heldSlot = some i →
                  (s.queue p).full = false →
                t.line.reply = some .accept
                  ∧ t.seq.inbound = (s.sequenceCheck v.sender c bit fresh).1.seq.inbound.map (fun e =>
                      if e.node = v.sender ∧ e.channel = c then { e with expected := !e.expected } else e)
                  ∧ t.queue p = { s.queue p with
                      records := (s.queue p).records
                        ++ [{ origin := .lineAddressed v.sender c, arrival := s.line.round,
                              lossesBefore := (s.queue p).pendingLosses, length := v.payload.length, slot := i }],
                      pendingLosses := 0 }
                  ∧ (t.engine p).flags = { (s.engine p).flags with rx := true }
                  ∧ (∀ q, q ≠ p → t.queue q = s.queue q ∧ t.engine q = s.engine q)
                  ∧ t.store.holders = s.store.holders.set i (s.store.holders[i] + 1)
                  ∧ (t.store.bytes[i]).toList.take v.payload.length = v.payload
                  ∧ (∀ j, j ≠ i → t.store.bytes[j] = s.store.bytes[j])
                  ∧ s.OnlyChanges t [.line, .seq, .store, .queues, .engines])

/-- R128, R129, R130, R135, R137: group delivery of a GOOD GROUP frame received in ACTIVE, whatever the mode and the
confinement: with a slot, each matching port is offered one record that refers to it; without one, each matching port
counts one loss; every other slot keeps its bytes. R4, R19: the line time ends with the reception end; that it ends in
this row is the model's reading (log 14). -/
def Obligations.GroupDeliveryOffersOrCountsLosses : Prop :=
  ∀ (s : State) (rx : Reception) (rest : List RxChar) (v : Classified) (g : GroupId),
    s.Receives rx → rx.phase = .frame → rx.activeAtStart = true → s.member.lineState = .active →
    v = classify (rx.chars ++ rest) → v.cls = .good → v.body = .group g → s.NoLocalPending →
    ∃ t, exec (.receptionEnd rest) s = .next t
      ∧ t.line.activity = .idle ∧ t.line.reception = none ∧ t.line.betweenTurns = true
      ∧ t.store.rxSlot = none ∧ t.line.holdFlag = false ∧ t.line.reply = s.line.reply
      ∧ s.OnlyChanges t [.line, .store, .queues, .engines]
      ∧ (∀ p, s.groupMatch p g = none → t.queue p = s.queue p ∧ t.engine p = s.engine p)
      ∧ (∀ i p e, s.heldSlot = some i → s.groupMatch p g = some e →
          let d : Delivery := { origin := .lineGroup v.sender g e, arrival := s.line.round,
                                length := v.payload.length, slot := i }
          t.queue p = (s.offer p d).state.queue p ∧ t.engine p = (s.offer p d).state.engine p)
      ∧ (∀ i, s.heldSlot = some i → (t.store.bytes[i]).toList.take v.payload.length = v.payload)
      ∧ (∀ j, s.heldSlot ≠ some j → t.store.bytes[j] = s.store.bytes[j])
      ∧ (∀ p e, s.heldSlot = none → s.groupMatch p g = some e →
          t.queue p = { s.queue p with pendingLosses := min 255 ((s.queue p).pendingLosses + 1) }
          ∧ (t.engine p).flags
              = { (s.engine p).flags with loss := (s.engine p).flags.loss || (s.queue p).pendingLosses == 0 })

/-! ## Own frames (01, 03, 04, 06, 08) -/

/-- R14, R39, R59, R60, R61, R64, R71, R73, R9, R10, R29, R97: a readback mismatch of an own frame: DEN low, the frame over
with COLLISION, both sequence tables as they were, and the activity received from its first start bit; after header byte 0
it is a foreign use, in header byte 0 the turn check is made on the byte as read back. The mailbox is HELD or EXPIRED,
ABORTED with abort-pending, VACANT if it was RETIRING; a round boundary that the turn check takes releases a HELD one. In
LEAVING the transmission end takes the node OFFLINE instead, with a HELD mailbox withdrawn, and nothing is received (the
model's reading, log 9). -/
def Obligations.CollisionTurnsTheFrameIntoAReception : Prop :=
  ∀ (s : State) (f : OwnFrame) (index : Nat) (sent : Byte) (c : RxChar),
    s.Sends .transmitting f → f.chars[index]? = some sent → c.framingError = true ∨ c.value ≠ sent →
    ∃ t, exec (.collision index c) s = .next t
      ∧ t.line.own = none ∧ t.line.den = false ∧ t.line.txd = []
      ∧ t.fault.window = (s.appendHealth .collision).fault.window ∧ t.seq = s.seq
      ∧ (s.member.lineState = .leaving →
          t.member.lineState = .offline ∧ t.line.activity = .idle ∧ t.line.reception = none)
      ∧ (s.member.lineState = .active → s.line.turn = s.member.config.nodeAddress →
          t.member.lineState = .active ∧ t.line.activity = .receiving
          ∧ (index = 0 → t.line.reception = some { phase := .opening, chars := [c], activeAtStart := true }
              ∧ t.line.turn = s.line.turn ∧ t.line.turnSlips = s.line.turnSlips)
          ∧ (2 ≤ index → t.line.reception.map (·.phase) = some .foreign
              ∧ t.line.turn = s.line.turn ∧ t.line.round = s.line.round ∧ t.fault.spoiled = true
              ∧ t.line.turnSlips.toNat = min 65535 (s.line.turnSlips.toNat + 1)
              ∧ t.store.rxSlot = s.store.rxSlot)
          ∧ (index = 1 → c.framingError = true ∨ c.value.toNat % 4 ≠ 0 →
              t.line.reception.map (·.phase) = some .disturbance ∧ t.line.turnSlips = s.line.turnSlips)
          ∧ (∀ a : NodeAddr, index = 1 → c.framingError = false → c.value.toNat % 4 = 0 →
              a.toNat = c.value.toNat / 8 →
              t.line.turn = a ∧ t.line.turnSlips.toNat = min 65535 (s.line.turnSlips.toNat + 1)
              ∧ t.line.reception.map (·.phase)
                  = some (if a = s.member.config.nodeAddress then .foreign else .frame)
              ∧ t.line.round = s.line.round + (if a < s.line.turn then 1 else 0))
          ∧ ((s.mailbox f.ref).state = .sending → (s.mailbox f.ref).abortPending = false →
              ∀ rec, (s.mailbox f.ref).record = some rec → rec.kind ≠ .localHandOff →
              (s.mailbox f.ref).attempts ≤ rec.retryLimit.toNat →
              t.mailbox f.ref = (if t.line.round = s.line.round then { s.mailbox f.ref with state := .held }
                else { s.mailbox f.ref with state := .queued, holdOff := 0 })))
      ∧ ((s.mailbox f.ref).state = .sending → (s.mailbox f.ref).abortPending = false →
          ∀ rec, (s.mailbox f.ref).record = some rec → rec.kind ≠ .localHandOff →
          (s.member.lineState = .leaving → (s.mailbox f.ref).attempts ≤ rec.retryLimit.toNat →
            f.ref ∈ s.sched.refs → s.Completed t f.ref .withdrawn none)
          ∧ (rec.retryLimit.toNat < (s.mailbox f.ref).attempts → s.Completed t f.ref .expired (some .collision)))
      ∧ ((s.mailbox f.ref).state = .sending → (s.mailbox f.ref).abortPending = true →
          s.Completed t f.ref .aborted none
          ∧ (t.mailbox f.ref).abortPending = false ∧ (t.mailbox f.ref).lateAbort = false)
      ∧ ((s.mailbox f.ref).state = .retiring → t.mailbox f.ref = Mailbox.vacant ∧ f.ref ∉ t.sched.refs)

/-- R15, R19: the last check byte of an own frame is read back clean: an ADDRESSED frame awaits its reply, its flag still
set; a GROUP frame ends SENT_CLEAN, its line time with it. R60, R39, R132, R135, R138: its mailbox completes SENT, the
window takes OK, and the other two ports are offered the echo in the lowest free slot, or count a loss without one, with
RX and LOSS as the append or the count sets them (R144); every other slot keeps its bytes. -/
def Obligations.CleanReadbackAwaitsReplyOrEchoes : Prop :=
  ∀ (s : State) (f : OwnFrame), s.Sends .transmitting f →
    (∀ d c b fr, f.body = .addressed d c b fr →
        ∃ t, exec .checkWordReadBack s = .next t
          ∧ t.line = { s.line with activity := .awaitingReply, den := false, txd := [] }
          ∧ s.OnlyChanges t [.line])
    ∧ ∀ g, f.body = .group g →
        ∃ t, exec .checkWordReadBack s = .next t
          ∧ t.line.own = none ∧ t.line.den = false ∧ t.line.txd = [] ∧ t.line.activity = .idle
          ∧ t.line.turn = s.line.turn ∧ t.line.round = s.line.round ∧ t.seq = s.seq
          ∧ (s.member.lineState = .active → t.member.lineState = .active ∧ t.line.betweenTurns = true
              ∧ t.fault = (s.appendHealth .sentClean).fault)
          ∧ (s.member.lineState = .leaving → t.member.lineState = .offline)
          ∧ ((s.mailbox f.ref).state = .sending → (s.mailbox f.ref).abortPending = false →
              s.Completed t f.ref .sent none ∧ (t.mailbox f.ref).lateAbort = (s.mailbox f.ref).lateAbort)
          ∧ ((s.mailbox f.ref).state = .sending → (s.mailbox f.ref).abortPending = true →
              s.Completed t f.ref .sent none ∧ (t.mailbox f.ref).lateAbort = true)
          ∧ ((s.mailbox f.ref).state = .retiring → t.mailbox f.ref = Mailbox.vacant ∧ f.ref ∉ t.sched.refs)
          ∧ (s.NoLocalPending → s.member.lineState = .active →
              s.LineFollows t (t.fault.state ≠ s.fault.state)
              ∧ t.queue f.ref.port = s.queue f.ref.port
              ∧ (t.engine f.ref.port).flags.rx = (s.engine f.ref.port).flags.rx
              ∧ (t.engine f.ref.port).flags.loss = (s.engine f.ref.port).flags.loss
              ∧ (∀ p, p ≠ f.ref.port → s.groupMatch p g = none →
                  t.queue p = s.queue p
                  ∧ t.engine p = { s.engine p with
                      flags := { (s.engine p).flags with line := (t.engine p).flags.line } })
              ∧ (∀ j, ¬ s.LowestFree j → t.store.bytes[j] = s.store.bytes[j])
              ∧ (∀ p e i, p ≠ f.ref.port → s.groupMatch p g = some e → s.LowestFree i → ∀ u,
                  u = (s.offer p { origin := .echo f.ref.port g e, arrival := s.line.round,
                                   length := f.payload.length, slot := i }).state →
                  t.queue p = u.queue p
                  ∧ t.engine p = { u.engine p with
                      flags := { (u.engine p).flags with line := (t.engine p).flags.line } }
                  ∧ (t.store.bytes[i]).toList.take f.payload.length = f.payload.take 64)
              ∧ (∀ p e, p ≠ f.ref.port → s.groupMatch p g = some e → s.freeSlots = [] →
                  t.queue p = { s.queue p with pendingLosses := min 255 ((s.queue p).pendingLosses + 1) }
                  ∧ t.engine p = { s.engine p with
                      flags := { (s.engine p).flags with
                        loss := (s.engine p).flags.loss || (s.queue p).pendingLosses == 0,
                        line := (t.engine p).flags.line } }))

/-- R4, R15, R59, R64, R73, R39, R97, R29: the end of the reply window of an own ADDRESSED frame, by the reply that came:
the mailbox, the fault window, the outbound entry of the frame's pair, and OFFLINE in LEAVING. -/
def Obligations.TransmissionEndSettlesTheAttempt : Prop :=
  ∀ (s : State) (f : OwnFrame) (reply : Option RxChar) (raw : RawResult) (d : NodeAddr) (c : ChannelNo)
    (b fr : Bool),
    s.Sends .awaitingReply f → f.body = .addressed d c b fr →
    ((reply = none ∧ raw = .noReply)
      ∨ ∃ ch : RxChar, reply = some ch
        ∧ ((ch.framingError = false ∧ ch.value = 0x3C ∧ raw = .accept)
          ∨ (ch.framingError = false ∧ ch.value = 0x5A ∧ raw = .defer)
          ∨ (ch.framingError = false ∧ ch.value = 0x69 ∧ raw = .refuse)
          ∨ ((ch.framingError = true ∨ ch.value ∉ [0x3C, 0x5A, 0x69]) ∧ raw = .badReply))) →
    ∃ t, exec (.transmissionEnd reply) s = .next t
      ∧ t.line.own = none ∧ t.line.activity = .idle ∧ t.line.den = false ∧ t.line.reception = none
      ∧ t.line.turn = s.line.turn ∧ t.line.round = s.line.round
      ∧ t.fault.window = (s.appendHealth raw).fault.window ∧ t.fault.state = (s.appendHealth raw).fault.state
      ∧ (s.member.lineState = .active → t.member.lineState = .active ∧ t.line.betweenTurns = true
          ∧ t.fault = (s.appendHealth raw).fault)
      ∧ (s.member.lineState = .leaving → t.member.lineState = .offline ∧ t.fault.cleanRounds = 0)
      ∧ t.seq.inbound = s.seq.inbound
      ∧ t.seq.outbound = s.seq.outbound.map (fun e =>
          if e.node = d ∧ e.channel = c then
            { e with nextBit := (if raw = .accept then !e.nextBit else e.nextBit),
                     fresh := (if raw = .accept ∨ raw = .defer then false else e.fresh) }
          else e)
      ∧ (∀ rec, (s.mailbox f.ref).record = some rec → rec.kind = .remote →
          ((s.mailbox f.ref).state = .sending → (s.mailbox f.ref).abortPending = false →
            (raw = .accept → s.Completed t f.ref .accepted none)
            ∧ (raw = .refuse → s.Completed t f.ref .refused none)
            ∧ (raw ≠ .accept → raw ≠ .refuse → rec.retryLimit.toNat < (s.mailbox f.ref).attempts →
                s.Completed t f.ref .expired (match raw with
                  | .defer => some .deferred | .noReply => some .noReply | .badReply => some .badReply
                  | _ => none))
            ∧ (raw ≠ .accept → raw ≠ .refuse → (s.mailbox f.ref).attempts ≤ rec.retryLimit.toNat →
                s.member.lineState = .active → t.mailbox f.ref = { s.mailbox f.ref with state := .held })
            ∧ (raw ≠ .accept → raw ≠ .refuse → (s.mailbox f.ref).attempts ≤ rec.retryLimit.toNat →
                s.member.lineState = .leaving → f.ref ∈ s.sched.refs →
                s.Completed t f.ref .withdrawn none)
            ∧ (t.mailbox f.ref).lateAbort = (s.mailbox f.ref).lateAbort)
          ∧ ((s.mailbox f.ref).state = .sending → (s.mailbox f.ref).abortPending = true →
            s.Completed t f.ref
                (match raw with | .accept => .accepted | .refuse => .refused | _ => .aborted) none
            ∧ (t.mailbox f.ref).abortPending = false
            ∧ ((t.mailbox f.ref).lateAbort = true ↔ raw = .accept ∨ raw = .refuse)))
      ∧ ((s.mailbox f.ref).state = .retiring → t.mailbox f.ref = Mailbox.vacant ∧ f.ref ∉ t.sched.refs)

/-- R3, R2, R13, R169, R5: the check word of R3's nine bytes; the bytes of every frame the N3 builds, the fields of its
header in their places and the check word most significant byte first; such a frame, received clean, is classified GOOD
with the sender, the kind and its fields, and the payload it was built from; and the four checks of R5: what makes an
activity a disturbance, a FORMAT_ERROR, a CHECK_ERROR or GOOD, when frame start is raised, and when the reception end
falls at the last check byte. That a lone preamble, or nothing, before quiet is a CHECK_ERROR is the model's reading
(log 12), and so is that a bad spare bit or length comes before a framing error of the same header byte (log 13). -/
def Obligations.FramesAreBuiltAndClassified : Prop :=
  checkWord [0x31, 0x32, 0x33, 0x34, 0x35, 0x36, 0x37, 0x38, 0x39] = 0x29B1#16
    ∧ (∀ f : OwnFrame, f.payload.length ≤ 64 →
        (∃ h0 h1 h2 len hi lo : Byte,
          f.chars = [0x55, h0, h1, h2, len] ++ f.payload ++ [hi, lo]
          ∧ len.toNat = f.payload.length
          ∧ hi.toNat * 256 + lo.toNat = (checkWord ([h0, h1, h2, len] ++ f.payload)).toNat
          ∧ (∀ d c seqBit fresh, f.body = .addressed d c seqBit fresh →
              h0.toNat = 8 * f.sender.toNat
              ∧ h1.toNat = 8 * d.toNat + (if seqBit = true then 4 else 0) + (if fresh = true then 2 else 0)
              ∧ h2.toNat = 16 * c.val)
          ∧ ∀ g, f.body = .group g →
              h0.toNat = 8 * f.sender.toNat + 4
              ∧ h1.toNat = g.toNat / 16 ∧ h2.toNat = 16 * (g.toNat % 16))
        ∧ ∀ v, v = classify (f.chars.map (fun b => { value := b, framingError := false })) →
            v.Is .good true true ∧ v.sender = f.sender ∧ v.body = f.body ∧ v.payload = f.payload)
    ∧ (classify []).Is .checkError false false
    ∧ (∀ (pre : RxChar) (rest : List RxChar), pre.value ≠ 0x55 ∨ pre.framingError = true →
        (classify (pre :: rest)).Is .formatError false false)
    ∧ ∀ pre : RxChar, pre.value = 0x55 → pre.framingError = false →
        (classify [pre]).Is .checkError false false
        ∧ (∀ (h0 : RxChar) (rest : List RxChar), h0.value.toNat % 4 ≠ 0 ∨ h0.framingError = true →
            (classify (pre :: h0 :: rest)).Is .formatError false false)
        ∧ ∀ h0 : RxChar, h0.value.toNat % 4 = 0 → h0.framingError = false →
            (classify [pre, h0]).Is .checkError true false
            ∧ ∀ (h1 : RxChar) (bad1 : Prop), (bad1 ↔ h0.value.getLsbD 2 = false ∧ h1.value.toNat % 2 = 1) →
                (∀ rest, bad1 → (classify (pre :: h0 :: h1 :: rest)).Is .formatError true false)
                ∧ (∀ rest, ¬ bad1 → h1.framingError = true →
                    (classify (pre :: h0 :: h1 :: rest)).Is .checkError true false)
                ∧ (¬ bad1 → h1.framingError = false →
                    (classify [pre, h0, h1]).Is .checkError true false
                    ∧ (∀ (h2 : RxChar) (rest : List RxChar), h2.value.toNat % 16 ≠ 0 →
                        (classify (pre :: h0 :: h1 :: h2 :: rest)).Is .formatError true false)
                    ∧ (∀ (h2 : RxChar) (rest : List RxChar), h2.value.toNat % 16 = 0 → h2.framingError = true →
                        (classify (pre :: h0 :: h1 :: h2 :: rest)).Is .checkError true false)
                    ∧ ∀ h2 : RxChar, h2.value.toNat % 16 = 0 → h2.framingError = false →
                        (classify [pre, h0, h1, h2]).Is .checkError true false
                        ∧ ∀ (len : RxChar) (tail : List RxChar), ∀ v,
                            v = classify (pre :: h0 :: h1 :: h2 :: len :: tail) →
                            (64 < len.value.toNat → v.Is .formatError true false)
                            ∧ (len.value.toNat ≤ 64 → len.framingError = true → v.Is .checkError true false)
                            ∧ (len.value.toNat ≤ 64 → len.framingError = false →
                                (tail.length < len.value.toNat + 2
                                    ∨ (∃ c ∈ tail.take (len.value.toNat + 2), c.framingError = true) →
                                  v.Is .checkError true false)
                                ∧ ∀ (payload : List RxChar) (hi lo : RxChar) (more : List RxChar),
                                    tail = payload ++ hi :: lo :: more → payload.length = len.value.toNat →
                                    (∀ c ∈ payload ++ [hi, lo], c.framingError = false) →
                                    ∀ w, w = checkWord ([h0.value, h1.value, h2.value, len.value]
                                        ++ payload.map (·.value)) →
                                    (hi.value.toNat * 256 + lo.value.toNat = w.toNat →
                                      v.Is .good true true ∧ v.payload = payload.map (·.value))
                                    ∧ (hi.value.toNat * 256 + lo.value.toNat ≠ w.toNat →
                                      v.Is .checkError true true)))

/-- R16, R19, R4, R12, R26, R27, R8: the N3's reply byte begins and ends, a line time ends, ten idle bit times end the
treatment of the line as busy, and a thousand establish sync; the first turn then begins at once, as TURN_BEGINS has it
where that turn is due, in turn 0 without a round boundary. A withdrawal of the last vote that falls together with sync
established leads to OFFLINE in either order. The model's choices: the count of 10 and the idle count's own movement
(log 15), the wait of the line time for a reply still to be sent (log 18), and that the withdrawal falls together with
sync established where it is the command that waits next (log 27). -/
def Obligations.ReplyLineTimeAndSyncEvents : Prop :=
  ∀ s : State,
    (∀ c : ReplyCode, s.line.activity = .receiving → s.line.reply = some c →
        ∃ t, exec .replyByteStart s = .next t
          ∧ t.line = { s.line with activity := .transmitting, reply := none, den := true,
                                   txd := [match c with | .accept => 0x3C | .defer => 0x5A | .refuse => 0x69] }
          ∧ s.OnlyChanges t [.line])
    ∧ (s.line.activity = .transmitting → s.line.own = none →
        ∃ t, exec .replyByteEnd s = .next t
          ∧ t.line = { s.line with activity := .receiving, den := false, txd := [] } ∧ s.OnlyChanges t [.line])
    ∧ (∀ rx, s.Receives rx → rx.phase = .ended ∨ rx.phase = .foreign ∨ rx.phase = .abandoned →
        s.line.reply = none →
        ∃ t, exec .lineTimeEnd s = .next t
          ∧ t.line = { s.line with activity := .idle, reception := none,
                                   betweenTurns := s.member.lineState == .active
                                     || s.member.lineState == .leaving }
          ∧ s.OnlyChanges t [.line])
    ∧ (s.member.lineState = .syncing → s.line.busyUntilIdle = true →
        ∃ t, exec .syncEntryIdleSeen s = .next t
          ∧ t.line = { s.line with busyUntilIdle := false, syncIdle := 10 } ∧ s.OnlyChanges t [.line])
    ∧ (s.member.lineState = .syncing → s.line.activity = .idle → ∀ m, m = s.syncByIdle →
        (m.member.lineState = .active
          ∧ m.line = { s.line with turn := 31, syncIdle := 1000, busyUntilIdle := false, firstTurnDue := true }
          ∧ m.fault = { s.fault with spoiled := true }
          ∧ (∀ q, (m.engine q).flags = { (s.engine q).flags with line := true })
          ∧ s.OnlyChanges m [.line, .lineState, .fault, .engines])
        ∧ ((∀ c rest, s.pending = c :: rest → m.withdrawnBy c = false) →
          ∃ t, exec .syncIdleCount s = .next t ∧ exec .turnBegins m = .next t
            ∧ t.member.lineState = .active ∧ t.line.turn = 0 ∧ t.line.round = s.line.round
            ∧ t.line.firstTurnDue = false
            ∧ (s.member.config.nodeAddress ≠ 0 →
                t.line = { m.line with turn := 0, betweenTurns := false, firstTurnDue := false }
                ∧ m.OnlyChanges t [.line]))
        ∧ (∀ c rest, s.pending = c :: rest → m.withdrawnBy c = true →
          exec .syncIdleCount s = .next m ∧ ∃ u, exec c m = .next u ∧ u.member.lineState = .offline)
        ∧ ∀ (p : Port) (bytes : List Byte), s.InTransaction p → s.line.own = none →
            s.vote p ≠ .none → (∀ q, q ≠ p → s.vote q = .none) →
            m.withdrawnBy (.vote p (0 :: bytes)) = true
            ∧ ∃ u, exec (.vote p (0 :: bytes)) s = .next u ∧ u.member.lineState = .offline ∧ u.mode = none
                ∧ exec .syncIdleCount u = .next u)

/-! ## Invariants -/

/-- R107, R92, R95, R103, R121, R122, R155, R164: every step keeps the channel table, the sequence tables, the acceptance
table and the port engines sound; where the pending list holds each waiting mailbox once, the outbound table holds at most
32 entries too, since a full one always has an entry that is not busy. That a transaction without a snapshot has brought
no bytes, as `State.PortsSound` has it, is the model's choice (log 26), not R155. -/
def Obligations.StepKeepsTablesSound : Prop :=
  ∀ s t : State, s.ChannelsSound → s.SequenceSound → s.EntriesSound → s.PortsSound → step s = .next t →
    t.ChannelsSound ∧ t.SequenceSound ∧ t.EntriesSound ∧ t.PortsSound
      ∧ (s.PendingListSound → s.seq.outbound.length ≤ 32 → t.seq.outbound.length ≤ 32)

/-- R19, R25, R29, R30, 01 (DEN and TXD): every step keeps votes, line state, line activity state, own frame and driver
in agreement. That a first turn can be due in ACTIVE on an idle line is the model's choice (log 27). -/
def Obligations.StepKeepsLineSound : Prop :=
  ∀ s t : State, s.LineSound → s.DriverSound → step s = .next t → t.LineSound ∧ t.DriverSound

/-- R38, R40, R45: every step keeps the fault window, the confinement state and the clean-round count in agreement. -/
def Obligations.StepKeepsConfinementSound : Prop :=
  ∀ s t : State, s.ConfinementSound → step s = .next t → t.ConfinementSound

/-- R135, R139, R140, R143, R145, R146: every step keeps holder counts, reception slot, queues and RX in agreement. -/
def Obligations.StepKeepsStoreSound : Prop :=
  ∀ s t : State, s.StoreSound → step s = .next t → t.StoreSound

/-- R54, R66, R75, R76, R84: every step keeps mailboxes, pending list, completion lists and the own frame in agreement;
between events no LOCAL mailbox is both QUEUED and eligible, and only QUEUED mailboxes are blocked. -/
def Obligations.StepKeepsBankSound : Prop :=
  ∀ s t : State, s.LineSound → s.BankSound → s.NoEligibleLocal → s.OrderSound → step s = .next t →
    t.BankSound ∧ t.NoEligibleLocal ∧ t.OrderSound

/-- The state after device reset has every invariant. -/
def Obligations.ResetStateIsSound : Prop :=
  State.reset.ChannelsSound ∧ State.reset.SequenceSound ∧ State.reset.EntriesSound ∧ State.reset.PortsSound
    ∧ State.reset.LineSound ∧ State.reset.DriverSound ∧ State.reset.ConfinementSound ∧ State.reset.StoreSound
    ∧ State.reset.seq.outbound.length ≤ 32 ∧ State.reset.BankSound ∧ State.reset.NoEligibleLocal ∧ State.reset.OrderSound

end Sys2ProofStatements
end

