-- ==== Sys2Proof/Laws/State.lean ====
section
/-! SUPPORT. What each named write of the state leaves as it is, and what a read gives after a write. -/

namespace Sys2Proof.Machine

variable (s : State)

@[simp] theorem State.putQueue_fields (p : Port) (v : Queue) :
    (s.putQueue p v).line = s.line
      ∧ (s.putQueue p v).member = s.member
      ∧ (s.putQueue p v).fault = s.fault
      ∧ (s.putQueue p v).mail = s.mail
      ∧ (s.putQueue p v).sched = s.sched
      ∧ (s.putQueue p v).seq = s.seq
      ∧ (s.putQueue p v).channels = s.channels
      ∧ (s.putQueue p v).entries = s.entries
      ∧ (s.putQueue p v).store = s.store
      ∧ (s.putQueue p v).engines = s.engines
      ∧ (s.putQueue p v).inReset = s.inReset
      ∧ (s.putQueue p v).draws = s.draws
      ∧ (s.putQueue p v).pending = s.pending :=
  ⟨rfl, rfl, rfl, rfl, rfl, rfl, rfl, rfl, rfl, rfl, rfl, rfl, rfl⟩

@[simp] theorem State.putQueue_queues (p : Port) (v : Queue) : (s.putQueue p v).queues = s.queues.set p v := rfl

@[simp] theorem State.putQueue_views (p : Port) (v : Queue) :
    (∀ (q : Port), (s.putQueue p v).engine q = s.engine q)
      ∧ (∀ (q : Ref), (s.putQueue p v).mailbox q = s.mailbox q)
      ∧ (∀ (q : Port), (s.putQueue p v).completions q = s.completions q)
      ∧ (∀ (q : ChannelNo), (s.putQueue p v).channel q = s.channel q)
      ∧ (∀ (q : EntryNo), (s.putQueue p v).entry q = s.entry q)
      ∧ (∀ (q : Port), (s.putQueue p v).vote q = s.vote q)
      ∧ (∀ (q : Port), (s.putQueue p v).order q = s.order q)
      ∧ (s.putQueue p v).mode = s.mode
      ∧ (s.putQueue p v).inFlight = s.inFlight
      ∧ (s.putQueue p v).tracking = s.tracking
      ∧ (s.putQueue p v).sampling = s.sampling :=
  ⟨fun _ => rfl, fun _ => rfl, fun _ => rfl, fun _ => rfl, fun _ => rfl, fun _ => rfl, fun _ => rfl, rfl, rfl, rfl, rfl⟩

@[simp] theorem State.putEngine_fields (p : Port) (v : Engine) :
    (s.putEngine p v).line = s.line
      ∧ (s.putEngine p v).member = s.member
      ∧ (s.putEngine p v).fault = s.fault
      ∧ (s.putEngine p v).mail = s.mail
      ∧ (s.putEngine p v).sched = s.sched
      ∧ (s.putEngine p v).seq = s.seq
      ∧ (s.putEngine p v).channels = s.channels
      ∧ (s.putEngine p v).entries = s.entries
      ∧ (s.putEngine p v).store = s.store
      ∧ (s.putEngine p v).queues = s.queues
      ∧ (s.putEngine p v).inReset = s.inReset
      ∧ (s.putEngine p v).draws = s.draws
      ∧ (s.putEngine p v).pending = s.pending :=
  ⟨rfl, rfl, rfl, rfl, rfl, rfl, rfl, rfl, rfl, rfl, rfl, rfl, rfl⟩

@[simp] theorem State.putEngine_engines (p : Port) (v : Engine) : (s.putEngine p v).engines = s.engines.set p v := rfl

@[simp] theorem State.putEngine_views (p : Port) (v : Engine) :
    (∀ (q : Port), (s.putEngine p v).queue q = s.queue q)
      ∧ (∀ (q : Ref), (s.putEngine p v).mailbox q = s.mailbox q)
      ∧ (∀ (q : Port), (s.putEngine p v).completions q = s.completions q)
      ∧ (∀ (q : ChannelNo), (s.putEngine p v).channel q = s.channel q)
      ∧ (∀ (q : EntryNo), (s.putEngine p v).entry q = s.entry q)
      ∧ (∀ (q : Port), (s.putEngine p v).vote q = s.vote q)
      ∧ (∀ (q : Port), (s.putEngine p v).order q = s.order q)
      ∧ (s.putEngine p v).mode = s.mode
      ∧ (s.putEngine p v).inFlight = s.inFlight
      ∧ (s.putEngine p v).tracking = s.tracking
      ∧ (s.putEngine p v).sampling = s.sampling :=
  ⟨fun _ => rfl, fun _ => rfl, fun _ => rfl, fun _ => rfl, fun _ => rfl, fun _ => rfl, fun _ => rfl, rfl, rfl, rfl, rfl⟩

@[simp] theorem State.putMailbox_fields (r : Ref) (v : Mailbox) :
    (s.putMailbox r v).line = s.line
      ∧ (s.putMailbox r v).member = s.member
      ∧ (s.putMailbox r v).fault = s.fault
      ∧ (s.putMailbox r v).sched = s.sched
      ∧ (s.putMailbox r v).seq = s.seq
      ∧ (s.putMailbox r v).channels = s.channels
      ∧ (s.putMailbox r v).entries = s.entries
      ∧ (s.putMailbox r v).store = s.store
      ∧ (s.putMailbox r v).queues = s.queues
      ∧ (s.putMailbox r v).engines = s.engines
      ∧ (s.putMailbox r v).inReset = s.inReset
      ∧ (s.putMailbox r v).draws = s.draws
      ∧ (s.putMailbox r v).pending = s.pending :=
  ⟨rfl, rfl, rfl, rfl, rfl, rfl, rfl, rfl, rfl, rfl, rfl, rfl, rfl⟩

@[simp] theorem State.putMailbox_views (r : Ref) (v : Mailbox) :
    (∀ (q : Port), (s.putMailbox r v).queue q = s.queue q)
      ∧ (∀ (q : Port), (s.putMailbox r v).engine q = s.engine q)
      ∧ (∀ (q : Port), (s.putMailbox r v).completions q = s.completions q)
      ∧ (∀ (q : ChannelNo), (s.putMailbox r v).channel q = s.channel q)
      ∧ (∀ (q : EntryNo), (s.putMailbox r v).entry q = s.entry q)
      ∧ (∀ (q : Port), (s.putMailbox r v).vote q = s.vote q)
      ∧ (∀ (q : Port), (s.putMailbox r v).order q = s.order q)
      ∧ (s.putMailbox r v).mode = s.mode
      ∧ (s.putMailbox r v).inFlight = s.inFlight
      ∧ (s.putMailbox r v).tracking = s.tracking
      ∧ (s.putMailbox r v).sampling = s.sampling :=
  ⟨fun _ => rfl, fun _ => rfl, fun _ => rfl, fun _ => rfl, fun _ => rfl, fun _ => rfl, fun _ => rfl, rfl, rfl, rfl, rfl⟩

@[simp] theorem State.putCompletions_fields (p : Port) (v : List MailboxIndex) :
    (s.putCompletions p v).line = s.line
      ∧ (s.putCompletions p v).member = s.member
      ∧ (s.putCompletions p v).fault = s.fault
      ∧ (s.putCompletions p v).sched = s.sched
      ∧ (s.putCompletions p v).seq = s.seq
      ∧ (s.putCompletions p v).channels = s.channels
      ∧ (s.putCompletions p v).entries = s.entries
      ∧ (s.putCompletions p v).store = s.store
      ∧ (s.putCompletions p v).queues = s.queues
      ∧ (s.putCompletions p v).engines = s.engines
      ∧ (s.putCompletions p v).inReset = s.inReset
      ∧ (s.putCompletions p v).draws = s.draws
      ∧ (s.putCompletions p v).pending = s.pending :=
  ⟨rfl, rfl, rfl, rfl, rfl, rfl, rfl, rfl, rfl, rfl, rfl, rfl, rfl⟩

@[simp] theorem State.putCompletions_views (p : Port) (v : List MailboxIndex) :
    (∀ (q : Port), (s.putCompletions p v).queue q = s.queue q)
      ∧ (∀ (q : Port), (s.putCompletions p v).engine q = s.engine q)
      ∧ (∀ (q : Ref), (s.putCompletions p v).mailbox q = s.mailbox q)
      ∧ (∀ (q : ChannelNo), (s.putCompletions p v).channel q = s.channel q)
      ∧ (∀ (q : EntryNo), (s.putCompletions p v).entry q = s.entry q)
      ∧ (∀ (q : Port), (s.putCompletions p v).vote q = s.vote q)
      ∧ (∀ (q : Port), (s.putCompletions p v).order q = s.order q)
      ∧ (s.putCompletions p v).mode = s.mode
      ∧ (s.putCompletions p v).inFlight = s.inFlight
      ∧ (s.putCompletions p v).tracking = s.tracking
      ∧ (s.putCompletions p v).sampling = s.sampling :=
  ⟨fun _ => rfl, fun _ => rfl, fun _ => rfl, fun _ => rfl, fun _ => rfl, fun _ => rfl, fun _ => rfl, rfl, rfl, rfl, rfl⟩

@[simp] theorem State.putChannel_fields (c : ChannelNo) (v : Channel) :
    (s.putChannel c v).line = s.line
      ∧ (s.putChannel c v).member = s.member
      ∧ (s.putChannel c v).fault = s.fault
      ∧ (s.putChannel c v).mail = s.mail
      ∧ (s.putChannel c v).sched = s.sched
      ∧ (s.putChannel c v).seq = s.seq
      ∧ (s.putChannel c v).entries = s.entries
      ∧ (s.putChannel c v).store = s.store
      ∧ (s.putChannel c v).queues = s.queues
      ∧ (s.putChannel c v).engines = s.engines
      ∧ (s.putChannel c v).inReset = s.inReset
      ∧ (s.putChannel c v).draws = s.draws
      ∧ (s.putChannel c v).pending = s.pending :=
  ⟨rfl, rfl, rfl, rfl, rfl, rfl, rfl, rfl, rfl, rfl, rfl, rfl, rfl⟩

@[simp] theorem State.putChannel_channels (c : ChannelNo) (v : Channel) : (s.putChannel c v).channels = s.channels.set c v := rfl

@[simp] theorem State.putChannel_views (c : ChannelNo) (v : Channel) :
    (∀ (q : Port), (s.putChannel c v).queue q = s.queue q)
      ∧ (∀ (q : Port), (s.putChannel c v).engine q = s.engine q)
      ∧ (∀ (q : Ref), (s.putChannel c v).mailbox q = s.mailbox q)
      ∧ (∀ (q : Port), (s.putChannel c v).completions q = s.completions q)
      ∧ (∀ (q : EntryNo), (s.putChannel c v).entry q = s.entry q)
      ∧ (∀ (q : Port), (s.putChannel c v).vote q = s.vote q)
      ∧ (∀ (q : Port), (s.putChannel c v).order q = s.order q)
      ∧ (s.putChannel c v).mode = s.mode
      ∧ (s.putChannel c v).inFlight = s.inFlight
      ∧ (s.putChannel c v).tracking = s.tracking
      ∧ (s.putChannel c v).sampling = s.sampling :=
  ⟨fun _ => rfl, fun _ => rfl, fun _ => rfl, fun _ => rfl, fun _ => rfl, fun _ => rfl, fun _ => rfl, rfl, rfl, rfl, rfl⟩

@[simp] theorem State.putEntry_fields (i : EntryNo) (v : Entry) :
    (s.putEntry i v).line = s.line
      ∧ (s.putEntry i v).member = s.member
      ∧ (s.putEntry i v).fault = s.fault
      ∧ (s.putEntry i v).mail = s.mail
      ∧ (s.putEntry i v).sched = s.sched
      ∧ (s.putEntry i v).seq = s.seq
      ∧ (s.putEntry i v).channels = s.channels
      ∧ (s.putEntry i v).store = s.store
      ∧ (s.putEntry i v).queues = s.queues
      ∧ (s.putEntry i v).engines = s.engines
      ∧ (s.putEntry i v).inReset = s.inReset
      ∧ (s.putEntry i v).draws = s.draws
      ∧ (s.putEntry i v).pending = s.pending :=
  ⟨rfl, rfl, rfl, rfl, rfl, rfl, rfl, rfl, rfl, rfl, rfl, rfl, rfl⟩

@[simp] theorem State.putEntry_entries (i : EntryNo) (v : Entry) : (s.putEntry i v).entries = s.entries.set i v := rfl

@[simp] theorem State.putEntry_views (i : EntryNo) (v : Entry) :
    (∀ (q : Port), (s.putEntry i v).queue q = s.queue q)
      ∧ (∀ (q : Port), (s.putEntry i v).engine q = s.engine q)
      ∧ (∀ (q : Ref), (s.putEntry i v).mailbox q = s.mailbox q)
      ∧ (∀ (q : Port), (s.putEntry i v).completions q = s.completions q)
      ∧ (∀ (q : ChannelNo), (s.putEntry i v).channel q = s.channel q)
      ∧ (∀ (q : Port), (s.putEntry i v).vote q = s.vote q)
      ∧ (∀ (q : Port), (s.putEntry i v).order q = s.order q)
      ∧ (s.putEntry i v).mode = s.mode
      ∧ (s.putEntry i v).inFlight = s.inFlight
      ∧ (s.putEntry i v).tracking = s.tracking
      ∧ (s.putEntry i v).sampling = s.sampling :=
  ⟨fun _ => rfl, fun _ => rfl, fun _ => rfl, fun _ => rfl, fun _ => rfl, fun _ => rfl, fun _ => rfl, rfl, rfl, rfl, rfl⟩

@[simp] theorem State.putOrder_fields (p : Port) (v : TransmitOrder) :
    (s.putOrder p v).line = s.line
      ∧ (s.putOrder p v).member = s.member
      ∧ (s.putOrder p v).fault = s.fault
      ∧ (s.putOrder p v).mail = s.mail
      ∧ (s.putOrder p v).seq = s.seq
      ∧ (s.putOrder p v).channels = s.channels
      ∧ (s.putOrder p v).entries = s.entries
      ∧ (s.putOrder p v).store = s.store
      ∧ (s.putOrder p v).queues = s.queues
      ∧ (s.putOrder p v).engines = s.engines
      ∧ (s.putOrder p v).inReset = s.inReset
      ∧ (s.putOrder p v).draws = s.draws
      ∧ (s.putOrder p v).pending = s.pending :=
  ⟨rfl, rfl, rfl, rfl, rfl, rfl, rfl, rfl, rfl, rfl, rfl, rfl, rfl⟩

@[simp] theorem State.putOrder_sched (p : Port) (v : TransmitOrder) : (s.putOrder p v).sched = { s.sched with orders := s.sched.orders.set p v } := rfl

@[simp] theorem State.putOrder_views (p : Port) (v : TransmitOrder) :
    (∀ (q : Port), (s.putOrder p v).queue q = s.queue q)
      ∧ (∀ (q : Port), (s.putOrder p v).engine q = s.engine q)
      ∧ (∀ (q : Ref), (s.putOrder p v).mailbox q = s.mailbox q)
      ∧ (∀ (q : Port), (s.putOrder p v).completions q = s.completions q)
      ∧ (∀ (q : ChannelNo), (s.putOrder p v).channel q = s.channel q)
      ∧ (∀ (q : EntryNo), (s.putOrder p v).entry q = s.entry q)
      ∧ (∀ (q : Port), (s.putOrder p v).vote q = s.vote q)
      ∧ (s.putOrder p v).mode = s.mode
      ∧ (s.putOrder p v).inFlight = s.inFlight
      ∧ (s.putOrder p v).tracking = s.tracking
      ∧ (s.putOrder p v).sampling = s.sampling :=
  ⟨fun _ => rfl, fun _ => rfl, fun _ => rfl, fun _ => rfl, fun _ => rfl, fun _ => rfl, fun _ => rfl, rfl, rfl, rfl, rfl⟩

@[simp] theorem State.putRefs_fields (v : List Ref) :
    (s.putRefs v).line = s.line
      ∧ (s.putRefs v).member = s.member
      ∧ (s.putRefs v).fault = s.fault
      ∧ (s.putRefs v).mail = s.mail
      ∧ (s.putRefs v).seq = s.seq
      ∧ (s.putRefs v).channels = s.channels
      ∧ (s.putRefs v).entries = s.entries
      ∧ (s.putRefs v).store = s.store
      ∧ (s.putRefs v).queues = s.queues
      ∧ (s.putRefs v).engines = s.engines
      ∧ (s.putRefs v).inReset = s.inReset
      ∧ (s.putRefs v).draws = s.draws
      ∧ (s.putRefs v).pending = s.pending :=
  ⟨rfl, rfl, rfl, rfl, rfl, rfl, rfl, rfl, rfl, rfl, rfl, rfl, rfl⟩

@[simp] theorem State.putRefs_sched (v : List Ref) : (s.putRefs v).sched = { s.sched with refs := v } := rfl

@[simp] theorem State.putRefs_views (v : List Ref) :
    (∀ (q : Port), (s.putRefs v).queue q = s.queue q)
      ∧ (∀ (q : Port), (s.putRefs v).engine q = s.engine q)
      ∧ (∀ (q : Ref), (s.putRefs v).mailbox q = s.mailbox q)
      ∧ (∀ (q : Port), (s.putRefs v).completions q = s.completions q)
      ∧ (∀ (q : ChannelNo), (s.putRefs v).channel q = s.channel q)
      ∧ (∀ (q : EntryNo), (s.putRefs v).entry q = s.entry q)
      ∧ (∀ (q : Port), (s.putRefs v).vote q = s.vote q)
      ∧ (∀ (q : Port), (s.putRefs v).order q = s.order q)
      ∧ (s.putRefs v).mode = s.mode
      ∧ (s.putRefs v).inFlight = s.inFlight
      ∧ (s.putRefs v).tracking = s.tracking
      ∧ (s.putRefs v).sampling = s.sampling :=
  ⟨fun _ => rfl, fun _ => rfl, fun _ => rfl, fun _ => rfl, fun _ => rfl, fun _ => rfl, fun _ => rfl, fun _ => rfl, rfl, rfl, rfl, rfl⟩

@[simp] theorem State.putRotation_fields (v : Port) :
    (s.putRotation v).line = s.line
      ∧ (s.putRotation v).member = s.member
      ∧ (s.putRotation v).fault = s.fault
      ∧ (s.putRotation v).mail = s.mail
      ∧ (s.putRotation v).seq = s.seq
      ∧ (s.putRotation v).channels = s.channels
      ∧ (s.putRotation v).entries = s.entries
      ∧ (s.putRotation v).store = s.store
      ∧ (s.putRotation v).queues = s.queues
      ∧ (s.putRotation v).engines = s.engines
      ∧ (s.putRotation v).inReset = s.inReset
      ∧ (s.putRotation v).draws = s.draws
      ∧ (s.putRotation v).pending = s.pending :=
  ⟨rfl, rfl, rfl, rfl, rfl, rfl, rfl, rfl, rfl, rfl, rfl, rfl, rfl⟩

@[simp] theorem State.putRotation_sched (v : Port) : (s.putRotation v).sched = { s.sched with rotation := v } := rfl

@[simp] theorem State.putRotation_views (v : Port) :
    (∀ (q : Port), (s.putRotation v).queue q = s.queue q)
      ∧ (∀ (q : Port), (s.putRotation v).engine q = s.engine q)
      ∧ (∀ (q : Ref), (s.putRotation v).mailbox q = s.mailbox q)
      ∧ (∀ (q : Port), (s.putRotation v).completions q = s.completions q)
      ∧ (∀ (q : ChannelNo), (s.putRotation v).channel q = s.channel q)
      ∧ (∀ (q : EntryNo), (s.putRotation v).entry q = s.entry q)
      ∧ (∀ (q : Port), (s.putRotation v).vote q = s.vote q)
      ∧ (∀ (q : Port), (s.putRotation v).order q = s.order q)
      ∧ (s.putRotation v).mode = s.mode
      ∧ (s.putRotation v).inFlight = s.inFlight
      ∧ (s.putRotation v).tracking = s.tracking
      ∧ (s.putRotation v).sampling = s.sampling :=
  ⟨fun _ => rfl, fun _ => rfl, fun _ => rfl, fun _ => rfl, fun _ => rfl, fun _ => rfl, fun _ => rfl, fun _ => rfl, rfl, rfl, rfl, rfl⟩

@[simp] theorem State.putLine_fields (v : LineUnit) :
    (s.putLine v).member = s.member
      ∧ (s.putLine v).fault = s.fault
      ∧ (s.putLine v).mail = s.mail
      ∧ (s.putLine v).sched = s.sched
      ∧ (s.putLine v).seq = s.seq
      ∧ (s.putLine v).channels = s.channels
      ∧ (s.putLine v).entries = s.entries
      ∧ (s.putLine v).store = s.store
      ∧ (s.putLine v).queues = s.queues
      ∧ (s.putLine v).engines = s.engines
      ∧ (s.putLine v).inReset = s.inReset
      ∧ (s.putLine v).draws = s.draws
      ∧ (s.putLine v).pending = s.pending :=
  ⟨rfl, rfl, rfl, rfl, rfl, rfl, rfl, rfl, rfl, rfl, rfl, rfl, rfl⟩

@[simp] theorem State.putLine_line (v : LineUnit) : (s.putLine v).line = v := rfl

@[simp] theorem State.putLine_views (v : LineUnit) :
    (∀ (q : Port), (s.putLine v).queue q = s.queue q)
      ∧ (∀ (q : Port), (s.putLine v).engine q = s.engine q)
      ∧ (∀ (q : Ref), (s.putLine v).mailbox q = s.mailbox q)
      ∧ (∀ (q : Port), (s.putLine v).completions q = s.completions q)
      ∧ (∀ (q : ChannelNo), (s.putLine v).channel q = s.channel q)
      ∧ (∀ (q : EntryNo), (s.putLine v).entry q = s.entry q)
      ∧ (∀ (q : Port), (s.putLine v).vote q = s.vote q)
      ∧ (∀ (q : Port), (s.putLine v).order q = s.order q)
      ∧ (s.putLine v).mode = s.mode
      ∧ (s.putLine v).tracking = s.tracking
      ∧ (s.putLine v).sampling = s.sampling :=
  ⟨fun _ => rfl, fun _ => rfl, fun _ => rfl, fun _ => rfl, fun _ => rfl, fun _ => rfl, fun _ => rfl, fun _ => rfl, rfl, rfl, rfl⟩

@[simp] theorem State.putFault_fields (v : Confinement) :
    (s.putFault v).line = s.line
      ∧ (s.putFault v).member = s.member
      ∧ (s.putFault v).mail = s.mail
      ∧ (s.putFault v).sched = s.sched
      ∧ (s.putFault v).seq = s.seq
      ∧ (s.putFault v).channels = s.channels
      ∧ (s.putFault v).entries = s.entries
      ∧ (s.putFault v).store = s.store
      ∧ (s.putFault v).queues = s.queues
      ∧ (s.putFault v).engines = s.engines
      ∧ (s.putFault v).inReset = s.inReset
      ∧ (s.putFault v).draws = s.draws
      ∧ (s.putFault v).pending = s.pending :=
  ⟨rfl, rfl, rfl, rfl, rfl, rfl, rfl, rfl, rfl, rfl, rfl, rfl, rfl⟩

@[simp] theorem State.putFault_fault (v : Confinement) : (s.putFault v).fault = v := rfl

@[simp] theorem State.putFault_views (v : Confinement) :
    (∀ (q : Port), (s.putFault v).queue q = s.queue q)
      ∧ (∀ (q : Port), (s.putFault v).engine q = s.engine q)
      ∧ (∀ (q : Ref), (s.putFault v).mailbox q = s.mailbox q)
      ∧ (∀ (q : Port), (s.putFault v).completions q = s.completions q)
      ∧ (∀ (q : ChannelNo), (s.putFault v).channel q = s.channel q)
      ∧ (∀ (q : EntryNo), (s.putFault v).entry q = s.entry q)
      ∧ (∀ (q : Port), (s.putFault v).vote q = s.vote q)
      ∧ (∀ (q : Port), (s.putFault v).order q = s.order q)
      ∧ (s.putFault v).mode = s.mode
      ∧ (s.putFault v).inFlight = s.inFlight
      ∧ (s.putFault v).tracking = s.tracking
      ∧ (s.putFault v).sampling = s.sampling :=
  ⟨fun _ => rfl, fun _ => rfl, fun _ => rfl, fun _ => rfl, fun _ => rfl, fun _ => rfl, fun _ => rfl, fun _ => rfl, rfl, rfl, rfl, rfl⟩

@[simp] theorem State.putStore_fields (v : FrameStore) :
    (s.putStore v).line = s.line
      ∧ (s.putStore v).member = s.member
      ∧ (s.putStore v).fault = s.fault
      ∧ (s.putStore v).mail = s.mail
      ∧ (s.putStore v).sched = s.sched
      ∧ (s.putStore v).seq = s.seq
      ∧ (s.putStore v).channels = s.channels
      ∧ (s.putStore v).entries = s.entries
      ∧ (s.putStore v).queues = s.queues
      ∧ (s.putStore v).engines = s.engines
      ∧ (s.putStore v).inReset = s.inReset
      ∧ (s.putStore v).draws = s.draws
      ∧ (s.putStore v).pending = s.pending :=
  ⟨rfl, rfl, rfl, rfl, rfl, rfl, rfl, rfl, rfl, rfl, rfl, rfl, rfl⟩

@[simp] theorem State.putStore_store (v : FrameStore) : (s.putStore v).store = v := rfl

@[simp] theorem State.putStore_views (v : FrameStore) :
    (∀ (q : Port), (s.putStore v).queue q = s.queue q)
      ∧ (∀ (q : Port), (s.putStore v).engine q = s.engine q)
      ∧ (∀ (q : Ref), (s.putStore v).mailbox q = s.mailbox q)
      ∧ (∀ (q : Port), (s.putStore v).completions q = s.completions q)
      ∧ (∀ (q : ChannelNo), (s.putStore v).channel q = s.channel q)
      ∧ (∀ (q : EntryNo), (s.putStore v).entry q = s.entry q)
      ∧ (∀ (q : Port), (s.putStore v).vote q = s.vote q)
      ∧ (∀ (q : Port), (s.putStore v).order q = s.order q)
      ∧ (s.putStore v).mode = s.mode
      ∧ (s.putStore v).inFlight = s.inFlight
      ∧ (s.putStore v).tracking = s.tracking
      ∧ (s.putStore v).sampling = s.sampling :=
  ⟨fun _ => rfl, fun _ => rfl, fun _ => rfl, fun _ => rfl, fun _ => rfl, fun _ => rfl, fun _ => rfl, fun _ => rfl, rfl, rfl, rfl, rfl⟩

@[simp] theorem State.putSeq_fields (v : SequenceUnit) :
    (s.putSeq v).line = s.line
      ∧ (s.putSeq v).member = s.member
      ∧ (s.putSeq v).fault = s.fault
      ∧ (s.putSeq v).mail = s.mail
      ∧ (s.putSeq v).sched = s.sched
      ∧ (s.putSeq v).channels = s.channels
      ∧ (s.putSeq v).entries = s.entries
      ∧ (s.putSeq v).store = s.store
      ∧ (s.putSeq v).queues = s.queues
      ∧ (s.putSeq v).engines = s.engines
      ∧ (s.putSeq v).inReset = s.inReset
      ∧ (s.putSeq v).draws = s.draws
      ∧ (s.putSeq v).pending = s.pending :=
  ⟨rfl, rfl, rfl, rfl, rfl, rfl, rfl, rfl, rfl, rfl, rfl, rfl, rfl⟩

@[simp] theorem State.putSeq_seq (v : SequenceUnit) : (s.putSeq v).seq = v := rfl

@[simp] theorem State.putSeq_views (v : SequenceUnit) :
    (∀ (q : Port), (s.putSeq v).queue q = s.queue q)
      ∧ (∀ (q : Port), (s.putSeq v).engine q = s.engine q)
      ∧ (∀ (q : Ref), (s.putSeq v).mailbox q = s.mailbox q)
      ∧ (∀ (q : Port), (s.putSeq v).completions q = s.completions q)
      ∧ (∀ (q : ChannelNo), (s.putSeq v).channel q = s.channel q)
      ∧ (∀ (q : EntryNo), (s.putSeq v).entry q = s.entry q)
      ∧ (∀ (q : Port), (s.putSeq v).vote q = s.vote q)
      ∧ (∀ (q : Port), (s.putSeq v).order q = s.order q)
      ∧ (s.putSeq v).mode = s.mode
      ∧ (s.putSeq v).inFlight = s.inFlight
      ∧ (s.putSeq v).tracking = s.tracking
      ∧ (s.putSeq v).sampling = s.sampling :=
  ⟨fun _ => rfl, fun _ => rfl, fun _ => rfl, fun _ => rfl, fun _ => rfl, fun _ => rfl, fun _ => rfl, fun _ => rfl, rfl, rfl, rfl, rfl⟩

@[simp] theorem State.putLineState_fields (v : LineState) :
    (s.putLineState v).line = s.line
      ∧ (s.putLineState v).fault = s.fault
      ∧ (s.putLineState v).mail = s.mail
      ∧ (s.putLineState v).sched = s.sched
      ∧ (s.putLineState v).seq = s.seq
      ∧ (s.putLineState v).channels = s.channels
      ∧ (s.putLineState v).entries = s.entries
      ∧ (s.putLineState v).store = s.store
      ∧ (s.putLineState v).queues = s.queues
      ∧ (s.putLineState v).engines = s.engines
      ∧ (s.putLineState v).inReset = s.inReset
      ∧ (s.putLineState v).draws = s.draws
      ∧ (s.putLineState v).pending = s.pending :=
  ⟨rfl, rfl, rfl, rfl, rfl, rfl, rfl, rfl, rfl, rfl, rfl, rfl, rfl⟩

@[simp] theorem State.putLineState_member (v : LineState) : (s.putLineState v).member = { s.member with lineState := v } := rfl

@[simp] theorem State.putLineState_views (v : LineState) :
    (∀ (q : Port), (s.putLineState v).queue q = s.queue q)
      ∧ (∀ (q : Port), (s.putLineState v).engine q = s.engine q)
      ∧ (∀ (q : Ref), (s.putLineState v).mailbox q = s.mailbox q)
      ∧ (∀ (q : Port), (s.putLineState v).completions q = s.completions q)
      ∧ (∀ (q : ChannelNo), (s.putLineState v).channel q = s.channel q)
      ∧ (∀ (q : EntryNo), (s.putLineState v).entry q = s.entry q)
      ∧ (∀ (q : Port), (s.putLineState v).vote q = s.vote q)
      ∧ (∀ (q : Port), (s.putLineState v).order q = s.order q)
      ∧ (s.putLineState v).mode = s.mode
      ∧ (s.putLineState v).inFlight = s.inFlight :=
  ⟨fun _ => rfl, fun _ => rfl, fun _ => rfl, fun _ => rfl, fun _ => rfl, fun _ => rfl, fun _ => rfl, fun _ => rfl, rfl, rfl⟩

@[simp] theorem State.putVotes_fields (v : Vector Vote 3) :
    (s.putVotes v).line = s.line
      ∧ (s.putVotes v).fault = s.fault
      ∧ (s.putVotes v).mail = s.mail
      ∧ (s.putVotes v).sched = s.sched
      ∧ (s.putVotes v).seq = s.seq
      ∧ (s.putVotes v).channels = s.channels
      ∧ (s.putVotes v).entries = s.entries
      ∧ (s.putVotes v).store = s.store
      ∧ (s.putVotes v).queues = s.queues
      ∧ (s.putVotes v).engines = s.engines
      ∧ (s.putVotes v).inReset = s.inReset
      ∧ (s.putVotes v).draws = s.draws
      ∧ (s.putVotes v).pending = s.pending :=
  ⟨rfl, rfl, rfl, rfl, rfl, rfl, rfl, rfl, rfl, rfl, rfl, rfl, rfl⟩

@[simp] theorem State.putVotes_member (v : Vector Vote 3) : (s.putVotes v).member = { s.member with votes := v } := rfl

@[simp] theorem State.putVotes_views (v : Vector Vote 3) :
    (∀ (q : Port), (s.putVotes v).queue q = s.queue q)
      ∧ (∀ (q : Port), (s.putVotes v).engine q = s.engine q)
      ∧ (∀ (q : Ref), (s.putVotes v).mailbox q = s.mailbox q)
      ∧ (∀ (q : Port), (s.putVotes v).completions q = s.completions q)
      ∧ (∀ (q : ChannelNo), (s.putVotes v).channel q = s.channel q)
      ∧ (∀ (q : EntryNo), (s.putVotes v).entry q = s.entry q)
      ∧ (∀ (q : Port), (s.putVotes v).order q = s.order q)
      ∧ (s.putVotes v).inFlight = s.inFlight
      ∧ (s.putVotes v).tracking = s.tracking
      ∧ (s.putVotes v).sampling = s.sampling :=
  ⟨fun _ => rfl, fun _ => rfl, fun _ => rfl, fun _ => rfl, fun _ => rfl, fun _ => rfl, fun _ => rfl, rfl, rfl, rfl⟩

@[simp] theorem State.drawn_fields  :
    s.drawn.line = s.line
      ∧ s.drawn.member = s.member
      ∧ s.drawn.fault = s.fault
      ∧ s.drawn.mail = s.mail
      ∧ s.drawn.sched = s.sched
      ∧ s.drawn.seq = s.seq
      ∧ s.drawn.channels = s.channels
      ∧ s.drawn.entries = s.entries
      ∧ s.drawn.store = s.store
      ∧ s.drawn.queues = s.queues
      ∧ s.drawn.engines = s.engines
      ∧ s.drawn.inReset = s.inReset
      ∧ s.drawn.pending = s.pending :=
  ⟨rfl, rfl, rfl, rfl, rfl, rfl, rfl, rfl, rfl, rfl, rfl, rfl, rfl⟩

@[simp] theorem State.drawn_draws  : s.drawn.draws = s.draws + 1 := rfl

@[simp] theorem State.drawn_views  :
    (∀ (q : Port), s.drawn.queue q = s.queue q)
      ∧ (∀ (q : Port), s.drawn.engine q = s.engine q)
      ∧ (∀ (q : Ref), s.drawn.mailbox q = s.mailbox q)
      ∧ (∀ (q : Port), s.drawn.completions q = s.completions q)
      ∧ (∀ (q : ChannelNo), s.drawn.channel q = s.channel q)
      ∧ (∀ (q : EntryNo), s.drawn.entry q = s.entry q)
      ∧ (∀ (q : Port), s.drawn.vote q = s.vote q)
      ∧ (∀ (q : Port), s.drawn.order q = s.order q)
      ∧ s.drawn.mode = s.mode
      ∧ s.drawn.inFlight = s.inFlight
      ∧ s.drawn.tracking = s.tracking
      ∧ s.drawn.sampling = s.sampling :=
  ⟨fun _ => rfl, fun _ => rfl, fun _ => rfl, fun _ => rfl, fun _ => rfl, fun _ => rfl, fun _ => rfl, fun _ => rfl, rfl, rfl, rfl, rfl⟩

/-! ## A read after a write -/

@[simp] theorem State.putQueue_queue (p q : Port) (v : Queue) :
    (s.putQueue p v).queue q = if q = p then v else s.queue q := by
  simp only [State.putQueue, State.queue, Fin.getElem_fin, Vector.getElem_set, eq_comm (a := q)]
  simp only [Fin.val_inj]

@[simp] theorem State.putEngine_engine (p q : Port) (v : Engine) :
    (s.putEngine p v).engine q = if q = p then v else s.engine q := by
  simp only [State.putEngine, State.engine, Fin.getElem_fin, Vector.getElem_set, eq_comm (a := q)]
  simp only [Fin.val_inj]

@[simp] theorem State.putCompletions_completions (p q : Port) (v : List MailboxIndex) :
    (s.putCompletions p v).completions q = if q = p then v else s.completions q := by
  simp only [State.putCompletions, State.completions, Fin.getElem_fin, Vector.getElem_set, eq_comm (a := q)]
  simp only [Fin.val_inj]

@[simp] theorem State.putChannel_channel (c d : ChannelNo) (v : Channel) :
    (s.putChannel c v).channel d = if d = c then v else s.channel d := by
  simp only [State.putChannel, State.channel, Fin.getElem_fin, Vector.getElem_set, eq_comm (a := d)]
  simp only [Fin.val_inj]

@[simp] theorem State.putEntry_entry (i j : EntryNo) (v : Entry) :
    (s.putEntry i v).entry j = if j = i then v else s.entry j := by
  simp only [State.putEntry, State.entry, Fin.getElem_fin, Vector.getElem_set, eq_comm (a := j)]
  simp only [Fin.val_inj]

@[simp] theorem State.putOrder_order (p q : Port) (v : TransmitOrder) :
    (s.putOrder p v).order q = if q = p then v else s.order q := by
  simp only [State.putOrder, State.order, Fin.getElem_fin, Vector.getElem_set, eq_comm (a := q)]
  simp only [Fin.val_inj]

theorem Ref.ext_iff' (a b : Ref) : a = b ↔ a.port = b.port ∧ a.index = b.index := by
  cases a; cases b; simp

@[simp] theorem State.putMailbox_mailbox (r q : Ref) (v : Mailbox) :
    (s.putMailbox r v).mailbox q = if q = r then v else s.mailbox q := by
  obtain ⟨rp, ri⟩ := r
  obtain ⟨qp, qi⟩ := q
  simp only [State.putMailbox, State.mailbox, Fin.getElem_fin, Ref.mk.injEq, Vector.getElem_set]
  by_cases hp : qp = rp
  · subst hp
    by_cases hi : qi = ri
    · subst hi; simp
    · simp [hi, Fin.val_inj, eq_comm (a := ri)]
  · simp [hp, Fin.val_inj, eq_comm (a := rp)]

/-! ## The bookkeeping of an event -/

@[simp] theorem Upd.start_state : (Upd.start s).state = s ∧ (Upd.start s).removed = false
    ∧ (Upd.start s).space = false := ⟨rfl, rfl, rfl⟩

@[simp] theorem Upd.on_parts (u : Upd) (f : State → State) :
    (u.on f).state = f u.state ∧ (u.on f).removed = u.removed ∧ (u.on f).space = u.space :=
  ⟨rfl, rfl, rfl⟩

@[simp] theorem Upd.andThen_parts (u : Upd) (f : State → Upd) :
    (u.andThen f).state = (f u.state).state
      ∧ (u.andThen f).removed = (u.removed || (f u.state).removed)
      ∧ (u.andThen f).space = (u.space || (f u.state).space) :=
  ⟨rfl, rfl, rfl⟩

@[simp] theorem Upd.each_nil {α : Type} (u : Upd) (f : α → State → Upd) : u.each [] f = u := rfl

@[simp] theorem Upd.each_cons {α : Type} (u : Upd) (a : α) (l : List α) (f : α → State → Upd) :
    u.each (a :: l) f = (u.andThen (f a)).each l f := rfl

/-- What every action of a list keeps, the list keeps. -/
theorem Upd.each_keeps {α β : Type} (g : State → β) (l : List α) (f : α → State → Upd)
    (h : ∀ a ∈ l, ∀ s, g (f a s).state = g s) (u : Upd) : g (u.each l f).state = g u.state := by
  induction l generalizing u with
  | nil => rfl
  | cons a l ih =>
    rw [Upd.each_cons, ih (fun b hb => h b (List.mem_cons_of_mem a hb))]
    exact h a List.mem_cons_self u.state

/-- A property that every action of a list keeps holds after the list. -/
theorem Upd.each_inv {α : Type} (P : State → Prop) (l : List α) (f : α → State → Upd)
    (h : ∀ a ∈ l, ∀ s, P s → P (f a s).state) (u : Upd) (hu : P u.state) : P (u.each l f).state := by
  induction l generalizing u with
  | nil => exact hu
  | cons a l ih =>
    rw [Upd.each_cons]
    exact ih (fun b hb => h b (List.mem_cons_of_mem a hb)) _ (h a List.mem_cons_self u.state hu)

end Sys2Proof.Machine
end

