-- ==== Sys2Proof/Laws/Frames.lean ====
section
/-! SUPPORT. Which parts of the state each shared operation may change: one frame lemma for each. -/

namespace Sys2Proof.Machine

/-! ## Frames compose -/

theorem State.OnlyChanges.refl (s : State) (l : List Part) : s.OnlyChanges s l :=
  ⟨rfl, fun k _ => by cases k <;> rfl⟩

theorem Part.Same.trans {s t u : State} {k : Part} (h : k.Same s t) (g : k.Same t u) : k.Same s u := by
  cases k <;> exact Eq.trans g h

theorem State.OnlyChanges.trans {s t u : State} {l : List Part} (h : s.OnlyChanges t l)
    (g : t.OnlyChanges u l) : s.OnlyChanges u l :=
  ⟨g.1.trans h.1, fun k hk => (h.2 k hk).trans (g.2 k hk)⟩

theorem State.OnlyChanges.mono {s t : State} {l m : List Part} (h : s.OnlyChanges t l)
    (hl : ∀ k, k ∈ l → k ∈ m) : s.OnlyChanges t m :=
  ⟨h.1, fun k hk => h.2 k (fun hm => hk (hl k hm))⟩

/-- Frames of two actions in a row: the second frame stands within the first. -/
theorem State.OnlyChanges.seq {s t u : State} {l m : List Part} (h : s.OnlyChanges t l)
    (g : t.OnlyChanges u m) (hm : ∀ k, k ∈ m → k ∈ l) : s.OnlyChanges u l :=
  h.trans (g.mono hm)

/-- An action taken for each element of a list keeps the frame of one action. -/
theorem State.OnlyChanges.foldl {α : Type} (f : State → α → State) (l : List Part)
    (h : ∀ (s : State) (a : α), s.OnlyChanges (f s a) l) (as : List α) (s : State) : s.OnlyChanges (as.foldl f s) l := by
  induction as generalizing s with
  | nil => exact .refl s l
  | cons a as ih => exact (h s a).trans (ih (f s a))

theorem Upd.on_only {u : Upd} {s : State} {l : List Part} {f : State → State} (h : s.OnlyChanges u.state l)
    (g : ∀ t : State, t.OnlyChanges (f t) l) : s.OnlyChanges (u.on f).state l := h.trans (g u.state)

theorem Upd.andThen_only {u : Upd} {s : State} {l : List Part} {f : State → Upd}
    (h : s.OnlyChanges u.state l) (g : ∀ t : State, t.OnlyChanges (f t).state l) :
    s.OnlyChanges (u.andThen f).state l := h.trans (g u.state)

theorem Upd.each_only {α : Type} (l : List Part) (f : α → State → Upd)
    (h : ∀ (a : α) (s : State), s.OnlyChanges (f a s).state l) (as : List α) (u : Upd) :
    u.state.OnlyChanges (u.each as f).state l := by
  induction as generalizing u with
  | nil => exact .refl _ l
  | cons a as ih => exact (h a u.state).trans (ih (u.andThen (f a)))

variable (s : State)

/-! ## Named writes -/

theorem State.putQueue_only (p : Port) (v : Queue) : s.OnlyChanges (s.putQueue p v) [.queues] :=
  ⟨rfl, fun k hk => by cases k <;> first | rfl | exact absurd (by decide) hk⟩
theorem State.putEngine_only (p : Port) (v : Engine) : s.OnlyChanges (s.putEngine p v) [.engines] :=
  ⟨rfl, fun k hk => by cases k <;> first | rfl | exact absurd (by decide) hk⟩
theorem State.putMailbox_only (r : Ref) (v : Mailbox) : s.OnlyChanges (s.putMailbox r v) [.boxes] :=
  ⟨rfl, fun k hk => by cases k <;> first | rfl | exact absurd (by decide) hk⟩
theorem State.putCompletions_only (p : Port) (v : List MailboxIndex) :
    s.OnlyChanges (s.putCompletions p v) [.completions] :=
  ⟨rfl, fun k hk => by cases k <;> first | rfl | exact absurd (by decide) hk⟩
theorem State.putChannel_only (c : ChannelNo) (v : Channel) : s.OnlyChanges (s.putChannel c v) [.channels] :=
  ⟨rfl, fun k hk => by cases k <;> first | rfl | exact absurd (by decide) hk⟩
theorem State.putEntry_only (i : EntryNo) (v : Entry) : s.OnlyChanges (s.putEntry i v) [.entries] :=
  ⟨rfl, fun k hk => by cases k <;> first | rfl | exact absurd (by decide) hk⟩
theorem State.putOrder_only (p : Port) (v : TransmitOrder) : s.OnlyChanges (s.putOrder p v) [.orders] :=
  ⟨rfl, fun k hk => by cases k <;> first | rfl | exact absurd (by decide) hk⟩
theorem State.putRefs_only (v : List Ref) : s.OnlyChanges (s.putRefs v) [.refs] :=
  ⟨rfl, fun k hk => by cases k <;> first | rfl | exact absurd (by decide) hk⟩
theorem State.putRotation_only (v : Port) : s.OnlyChanges (s.putRotation v) [.rotation] :=
  ⟨rfl, fun k hk => by cases k <;> first | rfl | exact absurd (by decide) hk⟩
theorem State.putLine_only (v : LineUnit) : s.OnlyChanges (s.putLine v) [.line] :=
  ⟨rfl, fun k hk => by cases k <;> first | rfl | exact absurd (by decide) hk⟩
theorem State.putFault_only (v : Confinement) : s.OnlyChanges (s.putFault v) [.fault] :=
  ⟨rfl, fun k hk => by cases k <;> first | rfl | exact absurd (by decide) hk⟩
theorem State.putStore_only (v : FrameStore) : s.OnlyChanges (s.putStore v) [.store] :=
  ⟨rfl, fun k hk => by cases k <;> first | rfl | exact absurd (by decide) hk⟩
theorem State.putSeq_only (v : SequenceUnit) : s.OnlyChanges (s.putSeq v) [.seq] :=
  ⟨rfl, fun k hk => by cases k <;> first | rfl | exact absurd (by decide) hk⟩
theorem State.putLineState_only (v : LineState) : s.OnlyChanges (s.putLineState v) [.lineState] :=
  ⟨rfl, fun k hk => by cases k <;> first | rfl | exact absurd (by decide) hk⟩
theorem State.putVotes_only (v : Vector Vote 3) : s.OnlyChanges (s.putVotes v) [.votes] :=
  ⟨rfl, fun k hk => by cases k <;> first | rfl | exact absurd (by decide) hk⟩
theorem State.drawn_only : s.OnlyChanges s.drawn [.draws] :=
  ⟨rfl, fun k hk => by cases k <;> first | rfl | exact absurd (by decide) hk⟩
theorem State.closeChannels_only (p : Port) : s.OnlyChanges (s.closeChannels p) [.channels, .seq] :=
  ⟨rfl, fun k hk => by cases k <;> first | rfl | exact absurd (by decide) hk⟩
theorem State.freeEntries_only (p : Port) : s.OnlyChanges (s.freeEntries p) [.entries] :=
  ⟨rfl, fun k hk => by cases k <;> first | rfl | exact absurd (by decide) hk⟩
theorem State.bankRoundBoundary_only : s.OnlyChanges s.bankRoundBoundary [.boxes] :=
  ⟨rfl, fun k hk => by cases k <;> first | rfl | exact absurd (by decide) hk⟩

/-! ## Flags and the port engine -/

theorem State.onFlags_only (p : Port) (f : Attention → Attention) : s.OnlyChanges (s.onFlags p f) [.engines] :=
  s.putEngine_only p _

theorem State.raiseLine_only : s.OnlyChanges s.raiseLine [.engines] :=
  State.OnlyChanges.foldl _ _ (fun t q => t.onFlags_only q _) allPorts s

theorem State.report_only (p : Port) (r : Result) : s.OnlyChanges (s.report p r) [.engines] :=
  s.putEngine_only p _

theorem State.setTxnPin_only (p : Port) (b : Bool) : s.OnlyChanges (s.setTxnPin p b) [.queues] :=
  s.putQueue_only p _

theorem State.closeTransaction_only (p : Port) : s.OnlyChanges (s.closeTransaction p) [.engines, .queues] :=
  ((s.putEngine_only p _).mono (by decide)).seq (State.setTxnPin_only _ p false) (by decide)

/-! ## Frame store and receive queues -/

theorem State.onHolders_only (i : SlotNo) (f : Nat → Nat) : s.OnlyChanges (s.onHolders i f) [.store] :=
  s.putStore_only _

theorem State.writeSlot_only (i : SlotNo) (b : List Byte) : s.OnlyChanges (s.writeSlot i b) [.store] :=
  s.putStore_only _

/-- What an append, a loss, a displacement and a removal may change. -/
abbrev storeParts : List Part := [.store, .queues, .engines]

theorem State.appendRecord_only (p : Port) (d : Delivery) : s.OnlyChanges (s.appendRecord p d) storeParts :=
  (((s.putQueue_only p _).mono (by decide)).seq (State.onHolders_only _ d.slot _) (by decide)).seq
    (State.onFlags_only _ p _) (by decide)

theorem State.countLoss_only (p : Port) (n : Nat) : s.OnlyChanges (s.countLoss p n) storeParts := by
  unfold State.countLoss
  simp only []
  split
  · exact ((s.putQueue_only p _).mono (by decide)).seq (State.onFlags_only _ p _) (by decide)
  · exact (s.putQueue_only p _).mono (by decide)

theorem State.displace_only (p : Port) (r : QueueRecord) (d : Delivery) :
    s.OnlyChanges (s.displace p r d).state storeParts :=
  (((((s.putQueue_only p _).mono (by decide)).seq (State.onHolders_only _ r.slot _) (by decide)).trans
    (State.countLoss_only _ p _)).seq (State.onFlags_only _ p _) (by decide)).trans
    (State.appendRecord_only _ p d)

theorem State.offer_only (p : Port) (d : Delivery) : s.OnlyChanges (s.offer p d).state storeParts := by
  unfold State.offer
  simp only []
  split
  · exact s.appendRecord_only p d
  · split
    · exact s.displace_only p _ d
    · exact s.countLoss_only p 1

theorem State.removeHead_only (p : Port) : s.OnlyChanges (s.removeHead p).state storeParts := by
  unfold State.removeHead
  simp only []
  split
  · exact .refl s _
  · exact (((s.putQueue_only p _).mono (by decide)).seq (State.onHolders_only _ _ _) (by decide)).seq
      (State.onFlags_only _ p _) (by decide)

theorem State.emptyQueue_only (p : Port) : s.OnlyChanges (s.emptyQueue p).state storeParts :=
  ((State.OnlyChanges.foldl (fun t (r : QueueRecord) => t.unhold r.slot) storeParts
      (fun t r => (t.onHolders_only r.slot _).mono (by decide)) (s.queue p).records s).seq
    (State.putQueue_only _ p _) (by decide)).seq (State.onFlags_only _ p _) (by decide)

theorem State.takeReceptionSlot_only : s.OnlyChanges s.takeReceptionSlot [.store, .line] := by
  unfold State.takeReceptionSlot
  split
  · exact ((s.putStore_only _).mono (by decide)).seq (State.putLine_only _ _) (by decide)
  · exact (s.putLine_only _).mono (by decide)

theorem State.endReceptionSlot_only : s.OnlyChanges s.endReceptionSlot.state [.store, .line] := by
  unfold State.endReceptionSlot
  simp only []
  split
  all_goals exact ((s.putStore_only _).mono (by decide)).seq (State.putLine_only _ _) (by decide)

theorem State.keepPayload_only (b : List Byte) : s.OnlyChanges (s.keepPayload b) [.store] := by
  unfold State.keepPayload
  split
  · exact s.writeSlot_only _ b
  · exact .refl s _

/-! ## Mailbox bank -/

/-- What a completion may change. -/
abbrev bankParts : List Part := [.boxes, .refs, .completions, .engines]

theorem State.dropRef_only (r : Ref) : s.OnlyChanges (s.dropRef r) [.refs] := s.putRefs_only _

theorem State.dropCompletion_only (r : Ref) : s.OnlyChanges (s.dropCompletion r) [.completions] :=
  s.putCompletions_only _ _

theorem State.complete_only (r : Ref) (o : MailOutcome) (c : Option ExpiryCause) :
    s.OnlyChanges (s.complete r o c) bankParts :=
  ((((s.putMailbox_only r _).mono (by decide)).seq (State.dropRef_only _ r) (by decide)).seq
    (State.putCompletions_only _ _ _) (by decide)).seq (State.onFlags_only _ _ _) (by decide)

theorem State.vacate_only (r : Ref) : s.OnlyChanges (s.vacate r) [.boxes, .refs] :=
  ((s.putMailbox_only r _).mono (by decide)).seq (State.dropRef_only _ r) (by decide)

theorem State.settleAttempt_only (r : Ref) (raw : RawResult) :
    s.OnlyChanges (s.settleAttempt r raw).state bankParts := by
  cases raw <;> simp only [State.settleAttempt] <;>
    first
    | exact s.complete_only r _ _
    | (split
       · exact s.complete_only r _ _
       · exact (s.putMailbox_only r _).mono (by decide))

theorem State.settleAborted_only (r : Ref) (raw : RawResult) :
    s.OnlyChanges (s.settleAborted r raw).state bankParts := by
  cases raw <;>
    exact ((s.putMailbox_only r _).mono (by decide)).trans (State.complete_only _ r _ _)

theorem State.settle_only (r : Ref) (raw : RawResult) : s.OnlyChanges (s.settle r raw).state bankParts := by
  unfold State.settle
  split
  · split
    · exact s.settleAborted_only r raw
    · exact s.settleAttempt_only r raw
  · exact (s.vacate_only r).mono (by decide)
  all_goals exact .refl s _

theorem State.withdrawAll_only : s.OnlyChanges s.withdrawAll.state bankParts :=
  Upd.each_only bankParts _ (fun r t => by
    split
    · exact t.complete_only r _ _
    · exact .refl t _) s.sched.refs (Upd.start s)

theorem State.resetMailbox_only (r : Ref) : s.OnlyChanges (s.resetMailbox r).state [.boxes, .refs] := by
  unfold State.resetMailbox
  split
  · exact (s.putMailbox_only r _).mono (by decide)
  · exact .refl s _
  all_goals exact s.vacate_only r

theorem State.resetMailboxes_only (p : Port) :
    s.OnlyChanges (s.resetMailboxes p).state [.boxes, .refs, .completions] :=
  (Upd.each_only [.boxes, .refs, .completions] _
    (fun i t => (t.resetMailbox_only { port := p, index := i }).mono (by decide)) allIndices
    (Upd.start s)).seq (State.putCompletions_only _ _ _) (by decide)

/-! ## Local hand-off -/

/-- What a local pass may change. -/
abbrev passParts : List Part := [.boxes, .refs, .completions, .store, .queues, .engines]

theorem State.handOff_only (r : Ref) (rec : MailRecord) (p : Port) (i : SlotNo) :
    s.OnlyChanges (s.handOff r rec p i) passParts :=
  (((s.writeSlot_only i _).mono (by decide)).seq (State.appendRecord_only _ p _) (by decide)).seq
    (State.complete_only _ r _ _) (by decide)

theorem State.decideLocal_only (r : Ref) (rec : MailRecord) : s.OnlyChanges (s.decideLocal r rec) passParts := by
  unfold State.decideLocal
  split
  · split
    · exact (s.putMailbox_only r _).mono (by decide)
    · split
      · exact (s.putMailbox_only r _).mono (by decide)
      · exact s.handOff_only r rec _ _
  · exact (s.complete_only r _ _).mono (by decide)

theorem State.passAt_only (retry : Bool) (r : Ref) : s.OnlyChanges (State.passAt retry s r) passParts := by
  unfold State.passAt
  split
  · split
    · exact s.decideLocal_only r _
    · exact .refl s _
  · exact .refl s _

theorem State.localPass_only (retry : Bool) : s.OnlyChanges (s.localPass retry) passParts :=
  State.OnlyChanges.foldl _ _ (fun t r => t.passAt_only retry r) s.sched.refs s

theorem Upd.finish_only (u : Upd) : u.state.OnlyChanges u.finish passParts := by
  unfold Upd.finish
  split
  · exact u.state.localPass_only true
  · split
    · exact u.state.localPass_only false
    · exact .refl _ _

/-! ## Sequence unit -/

theorem State.useOutbound_only (n : NodeAddr) (c : ChannelNo) : s.OnlyChanges (s.useOutbound n c) [.seq] :=
  s.putSeq_only _

theorem State.settleOutbound_only (f : OwnFrame) (raw : RawResult) :
    s.OnlyChanges (s.settleOutbound f raw) [.seq] := by
  unfold State.settleOutbound
  split
  · exact s.putSeq_only _
  · exact .refl s _

theorem State.sequenceCheck_only (n : NodeAddr) (c : ChannelNo) (b f : Bool) :
    s.OnlyChanges (s.sequenceCheck n c b f).1 [.seq] := s.putSeq_only _

theorem State.toggleExpected_only (n : NodeAddr) (c : ChannelNo) :
    s.OnlyChanges (s.toggleExpected n c) [.seq] := s.putSeq_only _

/-! ## Fault confinement -/

theorem State.confine_only (f : Confinement) : s.OnlyChanges (s.confine f) [.fault, .engines] := by
  unfold State.confine
  simp only []
  split
  · exact (s.putFault_only f).mono (by decide)
  · exact ((s.putFault_only f).mono (by decide)).seq (State.raiseLine_only _) (by decide)

theorem State.appendHealth_only (raw : RawResult) : s.OnlyChanges (s.appendHealth raw) [.fault, .engines] := by
  unfold State.appendHealth
  simp only []
  split
  all_goals exact s.confine_only _

theorem State.spoil_only : s.OnlyChanges s.spoil [.fault] := s.putFault_only _

theorem State.confinementRoundBoundary_only :
    s.OnlyChanges s.confinementRoundBoundary [.fault, .engines] := by
  unfold State.confinementRoundBoundary
  simp only []
  split
  · split
    all_goals exact s.confine_only _
  · exact (s.putFault_only _).mono (by decide)

/-! ## Rounds and turns -/

/-- What a round boundary may change, the round number apart. -/
abbrev boundaryParts : List Part := [.boxes, .refs, .completions, .store, .queues, .engines, .fault]

theorem State.roundBoundary_only : s.OnlyChanges s.roundBoundary boundaryParts := by
  unfold State.roundBoundary
  simp only []
  refine State.OnlyChanges.seq ?_ (State.confinementRoundBoundary_only _) (by decide)
  split
  · exact ((s.bankRoundBoundary_only).mono (by decide)).seq (State.localPass_only _ false) (by decide)
  · exact (s.bankRoundBoundary_only).mono (by decide)

theorem State.advanceTurn_only : s.OnlyChanges s.advanceTurn [.line] := by
  unfold State.advanceTurn
  simp only []
  split
  · exact (s.putLine_only _).trans (State.putLine_only _ _)
  · exact s.putLine_only _

theorem State.handFrame_only (r : Ref) (rec : MailRecord) :
    s.OnlyChanges (s.handFrame r rec) [.boxes, .seq, .line] := by
  unfold State.handFrame
  simp only []
  split
  · exact (((s.putMailbox_only r _).mono (by decide)).seq (State.useOutbound_only _ _ _) (by decide)).seq
      (State.putLine_only _ _) (by decide)
  · exact ((s.putMailbox_only r _).mono (by decide)).seq (State.putLine_only _ _) (by decide)

theorem State.ownTurnBegins_only : s.OnlyChanges s.ownTurnBegins [.boxes, .seq, .line, .rotation] := by
  unfold State.ownTurnBegins
  split
  · split
    · split
      · exact ((s.putRotation_only _).mono (by decide)).seq (State.handFrame_only _ _ _) (by decide)
      · exact .refl s _
    · exact .refl s _
  · exact .refl s _

theorem State.slip_only (a : NodeAddr) :
    s.OnlyChanges (s.slip a) [.line, .boxes, .refs, .completions, .store, .queues, .engines, .fault] := by
  have h1 : s.OnlyChanges ((s.putLine { s.line with turnSlips := saturatingSucc s.line.turnSlips }).spoil)
      [.line, .boxes, .refs, .completions, .store, .queues, .engines, .fault] :=
    ((s.putLine_only _).mono (by decide)).seq (State.spoil_only _) (by decide)
  unfold State.slip
  simp only []
  split
  · refine State.OnlyChanges.seq ?_ (State.putLine_only _ _) (by decide)
    split
    · exact (h1.seq (State.putLine_only _ _) (by decide)).seq (State.roundBoundary_only _) (by decide)
    · exact h1
  · exact h1

/-! ## Membership -/

theorem State.lineOffline_only : s.OnlyChanges s.lineOffline.state [.store, .line] :=
  Upd.on_only s.endReceptionSlot_only (fun t => (t.putLine_only _).mono (by decide))

theorem State.abandonReception_only : s.OnlyChanges s.abandonReception.state [.store, .line] := by
  unfold State.abandonReception
  split
  · split
    · exact Upd.on_only s.endReceptionSlot_only (fun t => (t.putLine_only _).mono (by decide))
    · exact .refl s _
  · exact .refl s _

/-- What a move of the line state may change. -/
abbrev moveParts : List Part :=
  [.lineState, .line, .store, .boxes, .refs, .completions, .engines, .fault]

theorem State.enterOffline_only : s.OnlyChanges s.enterOffline.state moveParts :=
  Upd.on_only
    (Upd.andThen_only (s.lineOffline_only.mono (by decide)) (fun t => t.withdrawAll_only.mono (by decide)))
    (fun t => (t.putFault_only _).mono (by decide))

theorem State.moveLineState_only (l : LineState) : s.OnlyChanges (s.moveLineState l).state moveParts := by
  unfold State.moveLineState
  split
  · exact .refl s _
  · split
    · exact ((s.putLineState_only _).mono (by decide)).trans (State.enterOffline_only _)
    · exact ((s.putLineState_only _).mono (by decide)).seq (State.putLine_only _ _) (by decide)
    · exact ((s.putLineState_only _).mono (by decide)).seq (State.abandonReception_only _) (by decide)
    · exact (s.putLineState_only _).mono (by decide)

theorem State.announceLine_only (b : State) : s.OnlyChanges (State.announceLine b s) [.engines] := by
  unfold State.announceLine
  split
  · exact .refl s _
  · exact s.raiseLine_only

theorem State.applyVotes_only (v : Vector Vote 3) :
    s.OnlyChanges (s.applyVotes v).state (.votes :: moveParts) :=
  Upd.on_only
    (((s.putVotes_only v).mono (by decide)).seq (State.moveLineState_only _ _) (by decide))
    (fun t => (t.announceLine_only s).mono (by decide))

theorem State.leaveAtEnd_only : s.OnlyChanges s.leaveAtEnd.state moveParts := by
  unfold State.leaveAtEnd
  split
  · exact Upd.on_only (s.moveLineState_only _) (fun t => (t.announceLine_only s).mono (by decide))
  · exact .refl s _

theorem State.syncEstablished_only : s.OnlyChanges s.syncEstablished [.lineState, .engines, .fault] :=
  (((s.putLineState_only _).mono (by decide)).seq (State.announceLine_only _ s) (by decide)).seq
    (State.spoil_only _) (by decide)

theorem State.syncByIdle_only : s.OnlyChanges s.syncByIdle [.line, .lineState, .engines, .fault] :=
  ((s.putLine_only _).mono (by decide)).seq (State.syncEstablished_only _) (by decide)

theorem State.startFirstTurn_only : s.OnlyChanges s.startFirstTurn [.line] := s.putLine_only _

theorem State.firstTurnBegins_only : s.OnlyChanges s.firstTurnBegins [.boxes, .seq, .line, .rotation] := by
  unfold State.firstTurnBegins
  simp only []
  split
  · exact (s.startFirstTurn_only.mono (by decide)).seq (State.ownTurnBegins_only _) (by decide)
  · exact s.startFirstTurn_only.mono (by decide)

/-! ## Deliveries -/

theorem State.deliverGroup_only (n : NodeAddr) (g : GroupId) (len : Nat) :
    s.OnlyChanges (s.deliverGroup n g len).state storeParts := by
  unfold State.deliverGroup
  split
  · refine Upd.each_only storeParts _ (fun p t => ?_) allPorts (Upd.start s)
    unfold State.deliverGroupAt
    split
    · exact t.offer_only p _
    · exact .refl t _
  · refine Upd.each_only storeParts _ (fun p t => ?_) allPorts (Upd.start s)
    unfold State.loseGroupAt
    split
    · exact t.countLoss_only p 1
    · exact .refl t _

theorem State.echo_only (q : Port) (g : GroupId) (b : List Byte) :
    s.OnlyChanges (s.echo q g b).state storeParts := by
  unfold State.echo
  simp only []
  split
  · split
    · refine Upd.each_only storeParts _ (fun p t => ?_) (otherPorts q) (Upd.start s)
      unfold State.loseGroupAt
      split
      · exact t.countLoss_only p 1
      · exact .refl t _
    · refine State.OnlyChanges.trans ((s.writeSlot_only _ b).mono (by decide))
        (Upd.each_only storeParts _ (fun p t => ?_) (otherPorts q) (Upd.start _))
      unfold State.echoAt
      split
      · exact t.offer_only p _
      · exact .refl t _
  · exact .refl s _

theorem State.replyDecision_only (n : NodeAddr) (c : ChannelNo) (b f : Bool) (len : Nat) :
    s.OnlyChanges (s.replyDecision n c b f len).1 [.seq, .store, .queues, .engines] := by
  unfold State.replyDecision
  split
  · exact .refl s _
  · split
    · exact .refl s _
    · simp only []
      split
      · exact (s.sequenceCheck_only n c b f).mono (by decide)
      · split
        · exact (s.sequenceCheck_only n c b f).mono (by decide)
        · split
          · exact (s.sequenceCheck_only n c b f).mono (by decide)
          · exact (((s.sequenceCheck_only n c b f).mono (by decide)).seq
              (State.appendRecord_only _ _ _) (by decide)).seq (State.toggleExpected_only _ n c) (by decide)

/-! ## Resets -/

/-- What a port reset leaves as it is: the line configuration, the rotation pointer, the levels of device reset
and the free orders (R166). -/
theorem State.portReset_only (p : Port) :
    s.OnlyChanges (s.portReset p)
      [.votes, .lineState, .line, .fault, .boxes, .completions, .refs, .orders, .seq, .channels, .entries,
       .store, .queues, .engines] := by
  refine State.OnlyChanges.seq ?_ (State.localPass_only _ true) (by decide)
  refine Upd.andThen_only ?_ (fun t => (t.applyVotes_only _).mono (by decide))
  refine Upd.on_only ?_ (fun t => (t.putOrder_only p _).mono (by decide))
  refine Upd.andThen_only ?_ (fun t => (t.emptyQueue_only p).mono (by decide))
  refine Upd.on_only ?_ (fun t =>
    ((t.closeChannels_only p).mono (by decide)).seq (State.freeEntries_only _ p) (by decide))
  exact ((s.putEngine_only p _).mono (by decide)).seq (State.resetMailboxes_only _ p) (by decide)

/-! ## Transmission end and reception end -/

/-- What a transmission end may change. -/
abbrev endParts : List Part :=
  [.line, .lineState, .store, .boxes, .refs, .completions, .engines, .fault, .seq, .queues, .draws]

theorem Upd.echo_only {u : Upd} (f : OwnFrame) : u.state.OnlyChanges (u.echo f).state endParts := by
  unfold Upd.echo
  split
  · exact .refl _ _
  · simp only []
    split
    · exact (((u.state.localPass_only _).mono (by decide)).seq (State.drawn_only _) (by decide)).seq
        (State.echo_only _ _ _ _) (by decide)
    · exact ((u.state.drawn_only).mono (by decide)).seq (State.echo_only _ _ _ _) (by decide)

theorem State.transmissionEnd_only (f : OwnFrame) (raw : RawResult) :
    s.OnlyChanges (s.transmissionEnd f raw) endParts := by
  have h : s.OnlyChanges
      ((((s.putLine { s.line with own := none, den := false, txd := [] }).settle f.ref raw).on
        (fun s => s.appendHealth raw)).on (fun s => s.settleOutbound f raw)).state endParts :=
    Upd.on_only (Upd.on_only (((s.putLine_only _).mono (by decide)).seq (State.settle_only _ f.ref raw)
      (by decide)) (fun t => (t.appendHealth_only raw).mono (by decide)))
      (fun t => (t.settleOutbound_only f raw).mono (by decide))
  unfold State.transmissionEnd
  simp only []
  refine State.OnlyChanges.seq ?_ (Upd.finish_only _) (by decide)
  refine Upd.andThen_only ?_ (fun t => t.leaveAtEnd_only.mono (by decide))
  split
  · exact h.trans (Upd.echo_only f)
  · exact h

end Sys2Proof.Machine
end

