-- ==== Sys2Proof/Laws/Operands.lean ====
section
/-! SUPPORT. What the readers of operand bytes answer, in the range of the operand and out of it. -/

namespace Sys2Proof.Machine

/-- A byte of at most 1 is 0 or 1. -/
theorem byte_le_one {b : Byte} (h : b.toNat ≤ 1) : b = 0 ∨ b = 1 := by
  have : b.toNat = 0 ∨ b.toNat = 1 := by omega
  rcases this with h | h
  · exact .inl (BitVec.eq_of_toNat_eq h)
  · exact .inr (BitVec.eq_of_toNat_eq h)

/-- A byte above another is not equal to it. -/
theorem byte_ne_of_lt {b c : Byte} (h : c.toNat < b.toNat) : ¬ (b == c) = true := by
  rw [beq_iff_eq]
  rintro rfl
  omega

/-- A reader of the codes 0 and 1 answers nothing for another byte. -/
theorem twoCodes_none {α : Type} (x y : α) {b : Byte} (h : 1 < b.toNat) :
    (if b == 0 then some x else if b == 1 then some y else none) = none := by
  rw [if_neg (byte_ne_of_lt (Nat.lt_of_le_of_lt (by decide) h)), if_neg (byte_ne_of_lt (c := 1) h)]

/-- A reader of the codes 0, 1 and 2 answers nothing for another byte. -/
theorem threeCodes_none {α : Type} (x y z : α) {b : Byte} (h : 2 < b.toNat) :
    (if b == 0 then some x else if b == 1 then some y else if b == 2 then some z else none) = none := by
  rw [if_neg (byte_ne_of_lt (Nat.lt_of_le_of_lt (by decide) h)),
    if_neg (byte_ne_of_lt (Nat.lt_of_le_of_lt (by decide) h)), if_neg (byte_ne_of_lt (c := 2) h)]

@[simp] theorem Vote.ofByte_code (v : Vote) : Vote.ofByte v.code = some v := by cases v <;> rfl

theorem Vote.ofByte_none {b : Byte} (h : 2 < b.toNat) : Vote.ofByte b = Option.none := threeCodes_none Vote.none .listen .full h

theorem MailKind.ofByte_none {b : Byte} (h : 2 < b.toNat) : MailKind.ofByte b = none := threeCodes_none _ _ _ h

@[simp] theorem MailKind.ofByte_code (k : MailKind) : MailKind.ofByte k.code = some k := by cases k <;> rfl

theorem EntryKind.ofByte_none {b : Byte} (h : 2 < b.toNat) : EntryKind.ofByte b = none := threeCodes_none _ _ _ h

@[simp] theorem EntryKind.ofByte_code (k : EntryKind) : EntryKind.ofByte k.code = some k := by
  cases k <;> rfl

/-! Two-valued operands: 0, 1, or out of range. -/

theorem SharePolicy.ofByte_some {b : Byte} (h : b.toNat ≤ 1) :
    SharePolicy.ofByte b = some (if b = 0 then .key else .rotate) := by
  rcases byte_le_one h with rfl | rfl <;> rfl
theorem SharePolicy.ofByte_none {b : Byte} (h : 1 < b.toNat) : SharePolicy.ofByte b = none := twoCodes_none _ _ h

theorem RecoveryPolicy.ofByte_some {b : Byte} (h : b.toNat ≤ 1) :
    RecoveryPolicy.ofByte b = some (if b = 0 then .auto else .manual) := by
  rcases byte_le_one h with rfl | rfl <;> rfl
theorem RecoveryPolicy.ofByte_none {b : Byte} (h : 1 < b.toNat) : RecoveryPolicy.ofByte b = none := twoCodes_none _ _ h

theorem TransmitOrder.ofByte_some {b : Byte} (h : b.toNat ≤ 1) :
    TransmitOrder.ofByte b = some (if b = 0 then .key else .arrival) := by
  rcases byte_le_one h with rfl | rfl <;> rfl
theorem TransmitOrder.ofByte_none {b : Byte} (h : 1 < b.toNat) : TransmitOrder.ofByte b = none := twoCodes_none _ _ h

theorem OverflowPolicy.ofByte_some {b : Byte} (h : b.toNat ≤ 1) :
    OverflowPolicy.ofByte b = some (if b = 0 then .dropNew else .displace) := by
  rcases byte_le_one h with rfl | rfl <;> rfl
theorem OverflowPolicy.ofByte_none {b : Byte} (h : 1 < b.toNat) : OverflowPolicy.ofByte b = none := twoCodes_none _ _ h

theorem ChannelState.ofClaimByte_some {b : Byte} (h : b.toNat ≤ 1) :
    ChannelState.ofClaimByte b = some (if b = 0 then .opened else .halted) := by
  rcases byte_le_one h with rfl | rfl <;> rfl
theorem ChannelState.ofClaimByte_none {b : Byte} (h : 1 < b.toNat) : ChannelState.ofClaimByte b = none := twoCodes_none _ _ h

theorem boolOfByte_some {b : Byte} (h : b.toNat ≤ 1) : boolOfByte b = some (b != 0) := by
  rcases byte_le_one h with rfl | rfl <;> rfl
theorem boolOfByte_none {b : Byte} (h : 1 < b.toNat) : boolOfByte b = none := twoCodes_none _ _ h

/-! Numbers in a range. -/

theorem indexOfByte_some {n : Nat} {b : Byte} {i : Fin n} (h : b.toNat = i.val) : indexOfByte n b = some i := by
  unfold indexOfByte
  rw [dif_pos (by omega)]
  exact congrArg some (Fin.ext h)

theorem indexOfByte_none {n : Nat} {b : Byte} (h : n ≤ b.toNat) : indexOfByte n b = none := by
  unfold indexOfByte
  rw [dif_neg (by omega)]

theorem twoBytes_toNat (hi lo : Byte) : (twoBytes hi lo).toNat = 256 * hi.toNat + lo.toNat := by
  have h : lo.toNat < 2 ^ 8 := lo.isLt
  rw [twoBytes, BitVec.toNat_append, Nat.shiftLeft_eq, Nat.mul_comm,
    ← Nat.two_pow_add_eq_or_of_lt h]

theorem groupOfBytes_some {hi lo : Byte} {g : GroupId} (h : g.toNat = 256 * hi.toNat + lo.toNat) :
    groupOfBytes hi lo = some g := by
  have hg : g.toNat < 4096 := g.isLt
  unfold groupOfBytes
  rw [twoBytes_toNat, if_pos (by omega)]
  refine congrArg some (BitVec.eq_of_toNat_eq ?_)
  rw [BitVec.toNat_setWidth, twoBytes_toNat]
  omega

theorem groupOfBytes_none {hi lo : Byte} (h : 4095 < 256 * hi.toNat + lo.toNat) :
    groupOfBytes hi lo = none := by
  unfold groupOfBytes
  rw [twoBytes_toNat, if_neg (by omega)]

/-- The two bytes of a 16-bit field. -/
theorem bytesOf16_eq (v : BitVec 16) : bytesOf16 v = [BitVec.ofNat 8 (v.toNat / 256), BitVec.ofNat 8 v.toNat] := by
  simp only [bytesOf16, List.cons.injEq, and_true]
  constructor <;> refine BitVec.eq_of_toNat_eq ?_ <;> simp [Nat.shiftRight_eq_div_pow]

/-- The two bytes of a group id. -/
theorem bytesOfGroup_eq (g : GroupId) :
    bytesOfGroup g = [BitVec.ofNat 8 (g.toNat / 256), BitVec.ofNat 8 g.toNat] := by
  have hg : g.toNat < 4096 := g.isLt
  rw [bytesOfGroup, bytesOf16_eq, BitVec.toNat_setWidth, Nat.mod_eq_of_lt (by omega)]

end Sys2Proof.Machine
end

