-- ==== Sys2Proof/Laws/Operations.lean ====
section
/-! SUPPORT. What the shared operations write: flags, fault confinement, mailboxes, appends, slots, turns, and when a
local pass finds nothing to do. -/

namespace Sys2Proof.Machine

variable (s : State)

/-! ## Attention flags -/

@[simp] theorem State.onFlags_engine (p q : Port) (f : Attention → Attention) :
    (s.onFlags p f).engine q
      = if q = p then { s.engine p with flags := f (s.engine p).flags } else s.engine q := by
  simp [State.onFlags]

@[simp] theorem State.followRx_engine (p q : Port) :
    (s.followRx p).engine q
      = if q = p then
          { s.engine p with flags := { (s.engine p).flags with rx := !(s.queue p).records.isEmpty } }
        else s.engine q := by
  simp [State.followRx]

@[simp] theorem State.raiseTxDone_engine (p q : Port) :
    (s.raiseTxDone p).engine q
      = if q = p then { s.engine p with flags := { (s.engine p).flags with txDone := true } }
        else s.engine q := by
  simp [State.raiseTxDone]

@[simp] theorem State.raiseLoss_engine (p q : Port) :
    (s.raiseLoss p).engine q
      = if q = p then { s.engine p with flags := { (s.engine p).flags with loss := true } }
        else s.engine q := by
  simp [State.raiseLoss]

@[simp] theorem State.raiseLine_engine (q : Port) :
    s.raiseLine.engine q = { s.engine q with flags := { (s.engine q).flags with line := true } } := by
  have h : q = 0 ∨ q = 1 ∨ q = 2 := by
    rcases q with ⟨_ | _ | _ | _, hq⟩
    · exact Or.inl rfl
    · exact Or.inr (Or.inl rfl)
    · exact Or.inr (Or.inr rfl)
    · omega
  rcases h with rfl | rfl | rfl <;> simp [State.raiseLine, allPorts]

/-- Flag changes leave every queue as it is. -/
@[simp] theorem State.onFlags_queue (p q : Port) (f : Attention → Attention) :
    (s.onFlags p f).queue q = s.queue q := rfl

/-! ## Fault confinement -/

@[simp] theorem State.confine_fault (f : Confinement) : (s.confine f).fault = f := by
  have h := (s.putFault f).raiseLine_only.2 .fault (by decide)
  unfold State.confine
  simp only []
  split
  · rfl
  · exact h

/-- R51: LINE at all ports exactly on a change of the confinement state. -/
theorem State.confine_engine (f : Confinement) (q : Port) :
    (s.confine f).engine q
      = if f.state = s.fault.state then s.engine q
        else { s.engine q with flags := { (s.engine q).flags with line := true } } := by
  unfold State.confine
  by_cases h : f.state = s.fault.state <;> simp [h]

/-- R39, R40: the window and the state after a transmission end. -/
theorem State.appendHealth_fault (raw : RawResult) :
    (s.appendHealth raw).fault.window = appendOutcome s.fault.window raw.health
      ∧ (s.appendHealth raw).fault.state
          = nextConfinement s.fault.state (failures (appendOutcome s.fault.window raw.health)) := by
  unfold State.appendHealth
  simp only []
  split <;> simp

/-! ## The pending list and the mailboxes -/

@[simp] theorem State.dropRef_refs (r : Ref) :
    (s.dropRef r).sched.refs = s.sched.refs.filter (· != r) := rfl

@[simp] theorem State.dropCompletion_completions (r : Ref) (q : Port) :
    (s.dropCompletion r).completions q
      = if q = r.port then (s.completions r.port).filter (· != r.index) else s.completions q := by
  simp [State.dropCompletion]

@[simp] theorem State.complete_mailbox (r q : Ref) (o : MailOutcome) (c : Option ExpiryCause) :
    (s.complete r o c).mailbox q
      = if q = r then { s.mailbox r with state := .done, outcome := some o, cause := c, holdOff := 0 }
        else s.mailbox q := by
  have h : (s.complete r o c).mailbox q
      = (s.putMailbox r { s.mailbox r with state := .done, outcome := some o, cause := c, holdOff := 0 }).mailbox
          q := rfl
  rw [h, State.putMailbox_mailbox]

@[simp] theorem State.complete_refs (r : Ref) (o : MailOutcome) (c : Option ExpiryCause) :
    (s.complete r o c).sched.refs = s.sched.refs.filter (· != r) := rfl

@[simp] theorem State.complete_completions (r : Ref) (o : MailOutcome) (c : Option ExpiryCause) (q : Port) :
    (s.complete r o c).completions q
      = if q = r.port then s.completions r.port ++ [r.index] else s.completions q := by
  have h : (s.complete r o c).completions q
      = (s.putCompletions r.port (s.completions r.port ++ [r.index])).completions q := rfl
  rw [h, State.putCompletions_completions]

@[simp] theorem State.complete_engine (r : Ref) (o : MailOutcome) (c : Option ExpiryCause) (q : Port) :
    (s.complete r o c).engine q
      = if q = r.port then { s.engine q with flags := { (s.engine q).flags with txDone := true } }
        else s.engine q := by
  have h : (s.complete r o c).engine q = (s.raiseTxDone r.port).engine q := rfl
  rw [h, State.raiseTxDone_engine]
  split
  · rename_i hq; rw [hq]
  · rfl

@[simp] theorem State.vacate_mailbox (r q : Ref) :
    (s.vacate r).mailbox q = if q = r then Mailbox.vacant else s.mailbox q := by
  have h : (s.vacate r).mailbox q = (s.putMailbox r .vacant).mailbox q := rfl
  rw [h, State.putMailbox_mailbox]

@[simp] theorem State.vacate_refs (r : Ref) : (s.vacate r).sched.refs = s.sched.refs.filter (· != r) := rfl

/-- R57, R61: what a round boundary does to a mailbox. -/
@[simp] theorem State.bankRoundBoundary_mailbox (r : Ref) :
    s.bankRoundBoundary.mailbox r = (s.mailbox r).atRoundBoundary := by
  simp [State.bankRoundBoundary, State.mailbox]

/-! ## Local passes -/

/-- R84: a local pass decides nothing where no LOCAL mailbox is on the pending list. -/
theorem State.localPass_none (retry : Bool) (h : s.NoLocalPending) : s.localPass retry = s := by
  have key : ∀ l : List Ref, (∀ r ∈ l, s.isLocal r = false) → l.foldl (State.passAt retry) s = s := by
    intro l
    induction l with
    | nil => intro _; rfl
    | cons r l ih =>
      intro hl
      have hr : State.passAt retry s r = s := by
        have hk := hl r List.mem_cons_self
        unfold State.passAt
        unfold State.isLocal State.kind at hk
        split
        · rename_i rec hrec
          have hn : (rec.kind == MailKind.localHandOff) = false := by
            rw [hrec] at hk
            simpa using hk
          simp [hn]
        · rfl
      rw [List.foldl_cons, hr]
      exact ih (fun q hq => hl q (List.mem_cons_of_mem r hq))
  exact key s.sched.refs h

/-- The end of an event where no LOCAL mailbox is on the pending list. -/
theorem Upd.finish_none (u : Upd) (h : u.state.NoLocalPending) : u.finish = u.state := by
  unfold Upd.finish
  split
  · exact u.state.localPass_none true h
  · split
    · exact u.state.localPass_none false h
    · rfl

/-! ## Appends, losses, removals -/

@[simp] theorem State.appendRecord_queue (p q : Port) (d : Delivery) :
    (s.appendRecord p d).queue q
      = if q = p then
          { s.queue p with
            records := (s.queue p).records ++ [d.record (s.queue p).pendingLosses], pendingLosses := 0 }
        else s.queue q := by
  have h : (s.appendRecord p d).queue q
      = (s.putQueue p { s.queue p with
          records := (s.queue p).records ++ [d.record (s.queue p).pendingLosses],
          pendingLosses := 0 }).queue q := rfl
  rw [h, State.putQueue_queue]

@[simp] theorem State.appendRecord_engine (p q : Port) (d : Delivery) :
    (s.appendRecord p d).engine q
      = if q = p then { s.engine p with flags := { (s.engine p).flags with rx := true } }
        else s.engine q := by
  have h : (s.appendRecord p d).engine q
      = ((s.putQueue p { s.queue p with
          records := (s.queue p).records ++ [d.record (s.queue p).pendingLosses],
          pendingLosses := 0 }).followRx p).engine q := rfl
  rw [h, State.followRx_engine]
  have hr : ((s.queue p).records ++ [d.record (s.queue p).pendingLosses]).isEmpty = false := by
    cases (s.queue p).records <;> rfl
  simp [hr]

@[simp] theorem State.appendRecord_store (p : Port) (d : Delivery) :
    (s.appendRecord p d).store
      = { s.store with holders := s.store.holders.set d.slot (s.store.holders[d.slot] + 1) } := rfl

@[simp] theorem State.countLoss_queue (p q : Port) (n : Nat) :
    (s.countLoss p n).queue q
      = if q = p then { s.queue p with pendingLosses := min 255 ((s.queue p).pendingLosses + n) }
        else s.queue q := by
  have h : (s.countLoss p n).queue q
      = (s.putQueue p { s.queue p with
          pendingLosses := min 255 ((s.queue p).pendingLosses + n) }).queue q := by
    unfold State.countLoss
    simp only []
    split <;> rfl
  rw [h, State.putQueue_queue]

@[simp] theorem State.countLoss_engine (p q : Port) (n : Nat) :
    (s.countLoss p n).engine q
      = if q = p then
          { s.engine p with
            flags := { (s.engine p).flags with
              loss := (s.engine p).flags.loss || (s.queue p).pendingLosses == 0 } }
        else s.engine q := by
  unfold State.countLoss
  by_cases h : (s.queue p).pendingLosses = 0
  · simp [h]
  · have hf : ((s.queue p).pendingLosses == 0) = false := by simpa using h
    by_cases hq : q = p
    · subst hq; simp [hf]
    · simp [hf, hq]

@[simp] theorem State.countLoss_store (p : Port) (n : Nat) : (s.countLoss p n).store = s.store := by
  unfold State.countLoss
  simp only []
  split <;> rfl

/-- R147: the head of a non-empty queue is removed. -/
theorem State.removeHead_cons (p : Port) (r : QueueRecord) (rest : List QueueRecord)
    (h : (s.queue p).records = r :: rest) :
    (s.removeHead p).space = true ∧ (s.removeHead p).removed = false
      ∧ (∀ q, (s.removeHead p).state.queue q
          = if q = p then { s.queue p with records := rest, pin := false } else s.queue q)
      ∧ (∀ q, (s.removeHead p).state.engine q
          = if q = p then { s.engine p with flags := { (s.engine p).flags with rx := !rest.isEmpty } }
            else s.engine q)
      ∧ (s.removeHead p).state.store
          = { s.store with holders := s.store.holders.set r.slot (s.store.holders[r.slot] - 1) } := by
  have e : s.removeHead p
      = { state := ((s.putQueue p { s.queue p with records := rest, pin := false }).unhold r.slot).followRx p,
          removed := false, space := true } := by
    unfold State.removeHead
    simp only [h]
  rw [e]
  refine ⟨rfl, rfl, fun q => ?_, fun q => ?_, rfl⟩
  · have hq : (((s.putQueue p { s.queue p with records := rest, pin := false }).unhold r.slot).followRx p).queue
        q = (s.putQueue p { s.queue p with records := rest, pin := false }).queue q := rfl
    rw [hq, State.putQueue_queue]
  · rw [State.followRx_engine]
    have hq : ((s.putQueue p { s.queue p with records := rest, pin := false }).unhold r.slot).queue p
        = (s.putQueue p { s.queue p with records := rest, pin := false }).queue p := rfl
    rw [hq, State.putQueue_queue, if_pos rfl]
    rfl

/-! ## Slots -/

/-- R135: the free pool is empty exactly when there is no lowest free slot. -/
theorem State.lowestFree_none : s.lowestFree = none ↔ s.freeSlots = [] := by
  unfold State.lowestFree
  cases s.freeSlots <;> simp

theorem State.mem_freeSlots (i : SlotNo) : i ∈ s.freeSlots ↔ s.slotFree i = true := by
  simp [State.freeSlots, List.mem_filter, List.mem_finRange]

/-- R135: the slot that the store takes is the lowest-numbered free one. -/
theorem State.lowestFree_some (i : SlotNo) : s.lowestFree = some i ↔ s.LowestFree i := by
  have hs : s.freeSlots.Pairwise (· < ·) := (List.pairwise_lt_finRange 32).filter _
  have hm := s.mem_freeSlots
  unfold State.lowestFree State.LowestFree
  cases hl : s.freeSlots with
  | nil =>
    simp only [hl, List.not_mem_nil, false_iff] at hm
    simp [hm i]
  | cons a l =>
    rw [hl] at hs hm
    simp only [List.pairwise_cons] at hs
    simp only [List.head?_cons, Option.some.injEq]
    constructor
    · rintro rfl
      refine ⟨(hm a).1 List.mem_cons_self, fun j hj => ?_⟩
      by_contra hf
      have := (hm j).2 (by simpa using hf)
      rcases List.mem_cons.1 this with rfl | h
      · exact absurd hj (lt_irrefl _)
      · exact absurd (hs.1 j h) (not_lt.2 hj.le)
    · rintro ⟨h1, h2⟩
      rcases List.mem_cons.1 ((hm i).2 h1) with rfl | h
      · rfl
      · have := h2 a (hs.1 i h)
        rw [(hm a).1 List.mem_cons_self] at this
        exact absurd this (by decide)

/-- R136: the reception slot of a frame start in ACTIVE. -/
theorem State.takeReceptionSlot_eq :
    s.takeReceptionSlot.line = { s.line with holdFlag := s.lowestFree.isSome }
      ∧ s.takeReceptionSlot.store = { s.store with rxSlot := s.lowestFree.or s.store.rxSlot } := by
  unfold State.takeReceptionSlot
  cases h : s.lowestFree <;> simp

/-- R137: the slot stops being the reception slot. -/
@[simp] theorem State.endReceptionSlot_eq :
    s.endReceptionSlot.state.line = { s.line with holdFlag := false }
      ∧ s.endReceptionSlot.state.store = { s.store with rxSlot := none } := by
  unfold State.endReceptionSlot
  cases s.store.rxSlot <;> exact ⟨rfl, rfl⟩

/-! ## Turns -/

/-- R6, R7: the turn counter and the round number as a turn begins. -/
theorem State.advanceTurn_line :
    s.advanceTurn.line
      = { s.line with turn := s.line.turn + 1, betweenTurns := false,
                      round := if s.line.turn = 31 then s.line.round + 1 else s.line.round } := by
  unfold State.advanceTurn State.advanceRound
  by_cases h : s.line.turn = 31
  · simp [h]
  · have hf : (s.line.turn == 31) = false := by simpa using h
    simp only [hf, if_neg h]
    rfl

/-- R12, R27: sync established leaves the line unit and the line configuration record. -/
@[simp] theorem State.syncEstablished_keeps :
    s.syncEstablished.line = s.line ∧ s.syncEstablished.member.config = s.member.config :=
  ⟨s.syncEstablished_only.2 .line (by decide), s.syncEstablished_only.2 .config (by decide)⟩

/-- R12: the line unit after sync by the sync idle count. -/
theorem State.syncByIdle_line :
    s.syncByIdle.line
      = { s.line with turn := 31, syncIdle := 1000, busyUntilIdle := false, firstTurnDue := true } := by
  simp [State.syncByIdle]

end Sys2Proof.Machine
end

