-- ==== Sys2Proof/Laws/Transactions.lean ====
section
/-! SUPPORT. What the shared operations of a transaction do: its end, the release of a command and of a read
command, the report of a result. -/

namespace Sys2Proof.Machine

variable (s : State) (p : Port)

/-! ## The end of a transaction -/

@[simp] theorem State.closeTransaction_engine (q : Port) :
    (s.closeTransaction p).engine q
      = if q = p then { s.engine p with csLow := false, txn := none } else s.engine q := by
  simp [State.closeTransaction, State.setTxnPin]

@[simp] theorem State.closeTransaction_queue (q : Port) :
    (s.closeTransaction p).queue q
      = if q = p then { s.queue p with txnPin := false } else s.queue q := by
  simp [State.closeTransaction, State.setTxnPin]

@[simp] theorem State.closeTransaction_fields :
    (s.closeTransaction p).line = s.line ∧ (s.closeTransaction p).member = s.member
      ∧ (s.closeTransaction p).fault = s.fault ∧ (s.closeTransaction p).mail = s.mail
      ∧ (s.closeTransaction p).sched = s.sched ∧ (s.closeTransaction p).seq = s.seq
      ∧ (s.closeTransaction p).channels = s.channels ∧ (s.closeTransaction p).entries = s.entries
      ∧ (s.closeTransaction p).store = s.store ∧ (s.closeTransaction p).inReset = s.inReset
      ∧ (s.closeTransaction p).draws = s.draws ∧ (s.closeTransaction p).pending = s.pending :=
  ⟨rfl, rfl, rfl, rfl, rfl, rfl, rfl, rfl, rfl, rfl, rfl, rfl⟩

@[simp] theorem State.closeTransaction_views :
    (∀ r, (s.closeTransaction p).mailbox r = s.mailbox r)
      ∧ (∀ q, (s.closeTransaction p).completions q = s.completions q)
      ∧ (∀ c, (s.closeTransaction p).channel c = s.channel c)
      ∧ (∀ i, (s.closeTransaction p).entry i = s.entry i)
      ∧ (∀ q, (s.closeTransaction p).vote q = s.vote q)
      ∧ (∀ q, (s.closeTransaction p).order q = s.order q)
      ∧ (s.closeTransaction p).mode = s.mode ∧ (s.closeTransaction p).inFlight = s.inFlight :=
  ⟨fun _ => rfl, fun _ => rfl, fun _ => rfl, fun _ => rfl, fun _ => rfl, fun _ => rfl, rfl, rfl⟩

/-! ## The report of a result -/

@[simp] theorem State.report_engine (r : Result) (q : Port) :
    (s.report p r).engine q
      = if q = p then
          { s.engine p with
            lastResult := r,
            flags := { (s.engine p).flags with error := (s.engine p).flags.error || r != .ok } }
        else s.engine q := by
  simp [State.report]

@[simp] theorem State.report_fields (r : Result) :
    (s.report p r).line = s.line ∧ (s.report p r).member = s.member ∧ (s.report p r).fault = s.fault
      ∧ (s.report p r).mail = s.mail ∧ (s.report p r).sched = s.sched ∧ (s.report p r).seq = s.seq
      ∧ (s.report p r).channels = s.channels ∧ (s.report p r).entries = s.entries
      ∧ (s.report p r).store = s.store ∧ (s.report p r).queues = s.queues
      ∧ (s.report p r).inReset = s.inReset ∧ (s.report p r).draws = s.draws
      ∧ (s.report p r).pending = s.pending :=
  ⟨rfl, rfl, rfl, rfl, rfl, rfl, rfl, rfl, rfl, rfl, rfl, rfl, rfl⟩

@[simp] theorem State.report_views (r : Result) :
    (∀ q, (s.report p r).queue q = s.queue q) ∧ (∀ q, (s.report p r).mailbox q = s.mailbox q)
      ∧ (∀ q, (s.report p r).completions q = s.completions q)
      ∧ (∀ c, (s.report p r).channel c = s.channel c) ∧ (∀ i, (s.report p r).entry i = s.entry i)
      ∧ (∀ q, (s.report p r).vote q = s.vote q) ∧ (∀ q, (s.report p r).order q = s.order q)
      ∧ (s.report p r).mode = s.mode :=
  ⟨fun _ => rfl, fun _ => rfl, fun _ => rfl, fun _ => rfl, fun _ => rfl, fun _ => rfl, fun _ => rfl, rfl⟩

/-! ## Releases -/

/-- A release of the transaction in progress acts on the state in which the transaction is over. -/
theorem State.atRelease_eq (t : Transaction) (fits : Transaction → Bool)
    (act : Option Snapshot → State → State) (h : (s.engine p).txn = some t)
    (hf : fits t = true) : s.atRelease p fits act = act t.snapshot (s.closeTransaction p) := by
  simp [State.atRelease, h, hf]

/-- R155, R164: with no transaction in progress a release only takes CSn high. -/
theorem State.atRelease_none (fits : Transaction → Bool) (act : Option Snapshot → State → State)
    (h : (s.engine p).txn = none) : s.atRelease p fits act = s.setCs p false := by
  simp [State.atRelease, h]

/-- A transaction of which no row has brought a byte may carry any command. -/
@[simp] theorem Transaction.mayCarry_nil (t : Transaction) (code : Byte) (h : t.received = []) :
    t.mayCarry code = true := by
  simp [Transaction.mayCarry, h]

/-- A transaction whose byte 0 has come carries the command with that code. -/
@[simp] theorem Transaction.mayCarry_head (t : Transaction) (code : Byte) (h : t.received.head? = some code) :
    t.mayCarry code = true := by
  simp [Transaction.mayCarry, h]

/-- The transaction of a port without a snapshot. -/
theorem State.InTransaction.exists_txn {s : State} {p : Port} (h : s.InTransaction p) :
    ∃ t, (s.engine p).txn = some t ∧ t.snapshot = none ∧ t.received = [] := by
  obtain ⟨t, ht, he⟩ := Option.map_eq_some_iff.mp h
  exact ⟨t, ht, congrArg Prod.fst he, congrArg Prod.snd he⟩

/-- The transaction of a port with the snapshot `n`. -/
theorem State.HasSnapshot.exists_txn {s : State} {p : Port} {n : Snapshot} (h : s.HasSnapshot p n) :
    ∃ t, (s.engine p).txn = some t ∧ t.snapshot = some n ∧ t.received.head? = some n.cmd.code := by
  obtain ⟨t, ht, he⟩ := Option.map_eq_some_iff.mp h
  exact ⟨t, ht, congrArg Prod.fst he, congrArg Prod.snd he⟩

/-- R156: the release of a transaction with this code. -/
theorem State.takeCode_eq (code : Byte) (body : State → State × Result) (h : s.InTransaction p) :
    s.takeCode p code body
      = (body (s.closeTransaction p)).1.report p (body (s.closeTransaction p)).2 := by
  obtain ⟨t, ht, _, hr⟩ := h.exists_txn
  exact s.atRelease_eq p t _ _ ht (t.mayCarry_nil code hr)

/-- R156: the release of a command that is not a read command. -/
theorem State.takeCommand_eq (c : Command) (body : State → State × Result) (h : s.InTransaction p) :
    s.takeCommand p c body
      = (body (s.closeTransaction p)).1.report p (body (s.closeTransaction p)).2 :=
  s.takeCode_eq p c.code body h

/-- R157: the release of a read command whose argument byte did not complete. -/
theorem State.takeRead_none (cmd : ReadCommand) (k : Nat) (effect : SideEffect → State → State)
    (h : s.InTransaction p) :
    s.takeRead p cmd k effect = (s.closeTransaction p).report p .truncated := by
  obtain ⟨t, ht, hn, hr⟩ := h.exists_txn
  rw [State.takeRead, s.atRelease_eq p t _ _ ht (t.mayCarry_nil _ hr), hn]
  rfl

/-- R157: the release of a read command after its snapshot `n`. -/
theorem State.takeRead_some (n : Snapshot) (k : Nat) (effect : SideEffect → State → State)
    (h : s.HasSnapshot p n) :
    s.takeRead p n.cmd k effect
      = (if readResult (some n) k = .ok then effect n.effect (s.closeTransaction p)
         else s.closeTransaction p).report p (readResult (some n) k) := by
  obtain ⟨t, ht, hn, hr⟩ := h.exists_txn
  rw [State.takeRead, s.atRelease_eq p t _ _ ht (t.mayCarry_head _ hr), hn]
  rfl

/-- A command whose body touches neither engines nor queues answers with its body's result. -/
theorem State.takeCommand_answered (c : Command) (body : State → State × Result) (parts : List Part)
    (h : s.InTransaction p)
    (hb : (s.closeTransaction p).OnlyChanges (body (s.closeTransaction p)).1 parts)
    (he : .engines ∉ parts) (hq : .queues ∉ parts) :
    s.Answered (s.takeCommand p c body) p (body (s.closeTransaction p)).2 parts := by
  have e : ∀ q, (body (s.closeTransaction p)).1.engine q = (s.closeTransaction p).engine q := fun q => by
    have := hb.2 .engines he
    simp only [Part.Same] at this
    simp only [State.engine, this]
  have f : ∀ q, (body (s.closeTransaction p)).1.queue q = (s.closeTransaction p).queue q := fun q => by
    have := hb.2 .queues hq
    simp only [Part.Same] at this
    simp only [State.queue, this]
  rw [s.takeCommand_eq p c body h]
  refine ⟨by simp [e], by simp [f], fun q hq => ?_, ?_⟩
  · simp [e, f, hq]
  · exact (((s.closeTransaction_only p).mono (by simp)).seq hb (by simp +contextual)).seq
      (State.report_only _ p _) (by simp)

/-- The end of a transaction with a report answers with the result reported. -/
theorem State.report_closeTransaction_answered (r : Result) :
    s.Answered ((s.closeTransaction p).report p r) p r [] :=
  ⟨by simp, by simp, fun q hq => by simp [hq],
    (s.closeTransaction_only p).seq (State.report_only _ p _) (by simp)⟩

/-- A read command without side effect answers with the result of its snapshot. -/
theorem State.takeRead_answered (n : Snapshot) (k : Nat) (h : s.HasSnapshot p n) :
    s.Answered (s.takeRead p n.cmd k noEffect) p (readResult (some n) k) [] := by
  have e : s.takeRead p n.cmd k noEffect = (s.closeTransaction p).report p (readResult (some n) k) := by
    rw [s.takeRead_some p n k _ h]
    simp [noEffect]
  rw [e]
  exact s.report_closeTransaction_answered p _

/-! ## Command codes -/

/-- R156: every command of the N3 is the one that its code names. -/
theorem commandOf_code : ∀ c ∈ Command.all, commandOf c.code = some c := by decide +kernel

/-- R156: a code that names a command is the code of that command. -/
theorem Command.code_of_commandOf {code : Byte} {c : Command} (h : commandOf code = some c) : c.code = code := by
  simpa using List.find?_some h

/-- R155, R156: the release of a transaction whose byte 0 names a command is the row of that command. -/
theorem releaseRow_named {code : Byte} {c : Command} (p : Port) (bytes : List Byte) (h : commandOf code = some c) :
    releaseRow p (code :: bytes) = c.row p bytes := by
  simp [releaseRow, h]

/-- R156: a code that names no command is a bad command, whatever the bytes after it. -/
theorem releaseRow_unnamed {code : Byte} (p : Port) (bytes : List Byte) (h : namesCommand code = false) :
    releaseRow p (code :: bytes) = .badCommand p code bytes := by
  have h' : commandOf code = none := by simpa [namesCommand] using h
  simp [releaseRow, h']

end Sys2Proof.Machine
end

