-- ==== Sys2Proof/Tests/Slice0.lean ====
section
/-! SUPPORT. Tests of the model: operands that the well-formedness check refuses, the effect of the rows on small states,
and for every statement with hypotheses states and operands that meet them (test_meets_<statement>). -/

namespace Sys2Proof.Tests

open Sys2Proof.Machine

set_option Elab.async false

/-! ## Small states -/

/-- The state that a command answers. -/
def after (c : Instr) (s : State) : State :=
  match exec c s with
  | .next t => t
  | .fault _ | .refused _ => s

/-- A transaction is in progress at the port, without a snapshot. -/
def inTx (p : Port) (s : State) : State :=
  s.putEngine p
    { s.engine p with csLow := true, txn := some { miso0 := 0, miso1 := 0, received := [], snapshot := none } }

/-- A transaction is in progress at the port, with the snapshot of a read command. -/
def read (p : Port) (cmd : ReadCommand) (arg : Byte) (s : State) : State :=
  after (.readSnapshot p cmd arg) (inTx p s)

/-- The snapshot of the transaction in progress. -/
def snapshot (p : Port) (s : State) : Option Snapshot := (s.engine p).txn.bind (·.snapshot)

/-- Node 6, ACTIVE and FULL by the vote of port 0, the line idle. -/
def online : State :=
  { State.reset with
    member := { votes := #v[.full, .none, .none], lineState := .active,
                config := { nodeAddress := 6, bitRate := 1, share := .key, recovery := .auto } } }

/-- The same at node address 0. -/
def nodeZero : State :=
  { online with member := { online.member with config := { online.member.config with nodeAddress := 0 } } }

/-- The line unit as `f` changes it. -/
def onLine (s : State) (f : LineUnit → LineUnit) : State := s.putLine (f s.line)

/-- A record without payload to channel 2 of node 9, or to group 5. -/
def record (kind : MailKind) : MailRecord :=
  match kind with
  | .remote => { kind := .remote, dest := 9, channel := 2, group := 0, key := 7, retryLimit := 1,
                 holdOffRounds := 0, payload := [0xA1] }
  | .localHandOff => { kind := .localHandOff, dest := 0, channel := 2, group := 0, key := 7, retryLimit := 0,
                       holdOffRounds := 0, payload := [0xA1] }
  | .group => { kind := .group, dest := 0, channel := 0, group := 5, key := 7, retryLimit := 1,
                holdOffRounds := 0, payload := [0xA1] }

/-- Mailbox 0 of port 0 holds a record of this kind and is in this state; it is on the pending list where its state
says so (R75). -/
def withBox (kind : MailKind) (st : MailState) (s : State) : State :=
  let s1 := s.putMailbox ⟨0, 0⟩
    { Mailbox.vacant with record := some (record kind), state := st,
                          attempts := if st.onLine || st == .held then 1 else 0,
                          outcome := if st == .done then some .sent else none }
  if st.onPendingList then s1.putRefs [⟨0, 0⟩] else s1

/-- The own frame that mailbox 0 of port 0 sends. -/
def ownFrame (kind : MailKind) : OwnFrame :=
  { ref := ⟨0, 0⟩, sender := 6, payload := [0xA1],
    body := match kind with
      | .group => .group 5
      | .remote | .localHandOff => .addressed 9 2 false true }

/-- The own frame is on the line, in this line activity state, at turn 6. -/
def sending (kind : MailKind) (a : Activity) : State :=
  onLine (withBox kind .sending online) (fun l =>
    { l with turn := 6, activity := a, own := some (ownFrame kind), den := a == .transmitting,
             txd := if a == .transmitting then (ownFrame kind).chars else [] })

/-- A character without a framing error. -/
def char (b : Byte) : RxChar := { value := b, framingError := false }

/-- A frame of node 3 in its turn: to channel 2 of node 6, or to group 5. -/
def foreignFrame (kind : MailKind) : List RxChar :=
  let f : OwnFrame :=
    { ref := ⟨0, 0⟩, sender := 3, payload := [0xB1],
      body := match kind with
        | .group => .group 5
        | .remote | .localHandOff => .addressed 6 2 true true }
  f.chars.map char

/-- Header byte 0 of this activity is the next character to complete; the turn counter stands at 3. -/
def opening (s : State) : State :=
  onLine s (fun l => { l with turn := 3, activity := .receiving,
                              reception := some { phase := .opening, chars := [],
                                                  activeAtStart := s.member.lineState == .active } })

/-- Frame start of that frame has been raised. -/
def receivingFrame (kind : MailKind) (s : State) : State :=
  after (.turnCheck ((foreignFrame kind).take 2)) (opening s)

/-- Its reception. -/
def reception (kind : MailKind) : Reception :=
  { phase := .frame, chars := (foreignFrame kind).take 2, activeAtStart := true }

/-- A frame of group 5 stands at the head of the queue of port 1, in slot 0. -/
def oneRecord (s : State) : State :=
  ((s.putQueue 1 { Queue.initial with
      records := [{ origin := .lineGroup 3 5 0, arrival := 0, lossesBefore := 0, length := 1, slot := 0 }] }).hold
    0).followRx 1

/-- Port 1 owns channel 2, OPEN, and entry 0 with group 5. -/
def receiver (s : State) : State :=
  (s.putChannel 2 { owner := some 1, state := .opened }).putEntry 0
    { owner := some 1, enabled := true, kind := .exact, first := 5, second := 0 }

/-! ## Operands that the check refuses -/

theorem test_wellFormed_refuses_named_code : (Instr.badCommand 0 0x50 []).wellFormed = false := by decide
theorem test_wellFormed_takes_unnamed_code : (Instr.badCommand 0 0x54 []).wellFormed = true := by decide
theorem test_wellFormed_refuses_no_header : (Instr.turnCheck []).wellFormed = false := by decide
theorem test_wellFormed_refuses_three_characters :
    (Instr.turnCheck [char 0, char 0, char 0]).wellFormed = false := by decide
theorem test_wellFormed_refuses_long_frame :
    (Instr.receptionEnd (List.replicate 72 (char 0))).wellFormed = false := by decide
theorem test_wellFormed_takes_longest_frame :
    (Instr.receptionEnd (List.replicate 71 (char 0))).wellFormed = true := by decide
theorem test_wellFormed_refuses_late_collision : (Instr.collision 71 (char 0)).wellFormed = false := by decide
theorem test_wellFormed_takes_last_character : (Instr.collision 70 (char 0)).wellFormed = true := by decide

/-! ## Words, frames, the queue of commands -/

theorem test_no_word_spells_a_command :
    decodeTableWord 8 0x50 = none ∧ State.reset.withFetchWord 8 0x50 = State.reset := ⟨rfl, rfl⟩

theorem test_idle_step : step State.reset = .next State.reset := rfl

theorem test_check_word : checkWord [0x31, 0x32, 0x33, 0x34, 0x35, 0x36, 0x37, 0x38, 0x39] = 0x29B1#16 := by
  decide +kernel

theorem test_frame_layout :
    (foreignFrame .remote).map (·.value) = [0x55, 0x18, 0x36, 0x20, 0x01, 0xB1]
        ++ checkChars (checkWord [0x18, 0x36, 0x20, 0x01, 0xB1])
      ∧ ((foreignFrame .group).map (·.value)).take 6 = [0x55, 0x1C, 0x00, 0x50, 0x01, 0xB1] := by
  decide +kernel

/-! ## Pins, transactions, port commands -/

theorem test_transactionBegin :
    (after (.transactionBegin 1) (oneRecord State.reset)).miso 1 0 = some 0
      ∧ (after (.transactionBegin 1) (oneRecord State.reset)).miso 1 1 = some 1
      ∧ State.reset.miso 1 0 = none := by decide +kernel

theorem test_transactionWithoutCommand :
    after (.transactionWithoutCommand 1) (inTx 1 State.reset) = State.reset := by decide +kernel

theorem test_badCommand :
    ((after (.badCommand 1 0x54 []) (inTx 1 State.reset)).engine 1).lastResult = .badCommand
      ∧ ((after (.badCommand 1 0x54 []) (inTx 1 State.reset)).engine 1).flags.error = true := by decide +kernel

theorem test_nop : after (.nop 1 [0]) (inTx 1 State.reset) = State.reset := by decide +kernel

theorem test_setPort :
    (after (.setPort 1 [0x01, 0x01]) (inTx 1 (oneRecord State.reset))).atn 1 = true
      ∧ (after (.setPort 1 [0x01, 0x01]) (inTx 1 State.reset)).order 1 = .arrival
      ∧ ((after (.setPort 1 [0x20, 0x00]) (inTx 1 State.reset)).engine 1).lastResult = .badArgument := by
  decide +kernel

theorem test_acknowledge :
    ((after (.acknowledge 1 [0x09]) (inTx 1 (oneRecord State.reset).raiseLine)).engine 1).flags
      = { Attention.none with rx := true } := by decide +kernel

theorem test_resetPort :
    (after (.resetPort 1 [0]) (inTx 1 (receiver (oneRecord State.reset)))) = State.reset.putEngine 1
      (State.reset.engine 1) := by decide +kernel

theorem test_portReset :
    (after (.portReset 0) online).member.lineState = .offline
      ∧ ((after (.portReset 0) online).engine 0).prstLow = true
      ∧ ((after (.portReset 0) online).engine 0).flags.line = true := by decide +kernel

theorem test_prstRelease :
    ((after (.prstRelease 0) (after (.portReset 0) State.reset))) = State.reset := by decide +kernel

theorem test_deviceReset :
    after .deviceReset (receiver (oneRecord online)) = { State.reset with inReset := true } := by decide +kernel

theorem test_deviceResetEnds :
    after .deviceResetEnds { State.reset with inReset := true } = State.reset := by decide +kernel

/-! ## Line standing -/

theorem test_vote :
    (after (.vote 0 [2]) (inTx 0 State.reset)).member.lineState = .syncing
      ∧ (after (.vote 0 [0]) (inTx 0 online)).member.lineState = .offline
      ∧ (after (.vote 0 [0]) (inTx 0 (sending .group .transmitting))).member.lineState = .leaving := by
  decide +kernel

theorem test_vote_withdraws :
    ((after (.vote 0 [0]) (inTx 0 (withBox .remote .queued online))).mailbox ⟨0, 0⟩).outcome = some .withdrawn := by
  decide +kernel

theorem test_configure :
    (after (.configure 2 [6, 4, 1, 1]) (inTx 2 State.reset)).member.config
        = { nodeAddress := 6, bitRate := 4, share := .rotate, recovery := .manual }
      ∧ ((after (.configure 2 [6, 4, 1, 1]) (inTx 2 online)).engine 2).lastResult = .busy := by decide +kernel

theorem test_readLine :
    (snapshot 0 (read 0 .line 0 online)).map (·.data)
      = some [2, 2, 2, 0, 0, 6, 1, 0, 0, 0, 0, 0, 0, 0, 0, 0, 0, 0, 0, 0] := by decide +kernel

theorem test_readLine_reduces :
    let s := read 0 .line 1 (onLine State.reset (fun l => { l with checkErrors := 3, turnSlips := 2 }))
    (after (.readLine 0 20) s).line.checkErrors = 0
      ∧ (after (.readLine 0 19) s).line.checkErrors = 3
      ∧ (after (.readLine 0 20) (onLine s (fun l => { l with turnSlips := 5 }))).line.turnSlips = 3 := by
  decide +kernel

theorem test_resume :
    (after (.resume 2 [0]) (inTx 2 { State.reset with
        fault := { window := [.fail], state := .readyToResume, cleanRounds := 4, spoiled := true } })).fault
      = { window := [], state := .engaged, cleanRounds := 0, spoiled := true } := by decide +kernel

/-! ## Mailboxes -/

theorem test_load :
    (after (.load 0 [0, 1, 31, 2, 0xFF, 0xFF, 7, 0xFF, 0, 0xEE, 1, 0xA1, 0xA2]) (inTx 0 State.reset)).mailbox ⟨0, 0⟩
      = { Mailbox.vacant with state := .loaded, record := some (record .localHandOff) } := by decide +kernel

theorem test_load_refuses :
    ((after (.load 0 [0, 0, 32, 2, 0, 0, 7, 1, 0, 0, 0]) (inTx 0 State.reset)).engine 0).lastResult = .badArgument
      ∧ ((after (.load 0 [0, 0, 9, 2, 0, 0, 7, 1, 0, 0, 1]) (inTx 0 State.reset)).engine 0).lastResult
          = .truncated := by decide +kernel

theorem test_request :
    (after (.request 0 [0]) (inTx 0 (withBox .group .loaded online))).sched.refs = [⟨0, 0⟩]
      ∧ ((after (.request 0 [0]) (inTx 0 (withBox .group .loaded State.reset))).engine 0).lastResult = .offline := by
  decide +kernel

theorem test_request_hands_off :
    let t := after (.request 0 [0]) (inTx 0 (withBox .localHandOff .loaded (receiver State.reset)))
    (t.mailbox ⟨0, 0⟩).outcome = some .accepted
      ∧ (t.queue 1).records = [{ origin := .handOff 0 2, arrival := 0, lossesBefore := 0, length := 1, slot := 0 }]
      ∧ t.store.bytes[0][0] = 0xA1 ∧ t.store.holders[0] = 1 ∧ t.sched.refs = [] := by decide +kernel

theorem test_abort :
    ((after (.abort 0 [0]) (inTx 0 (withBox .remote .queued online))).mailbox ⟨0, 0⟩).outcome = some .aborted
      ∧ ((after (.abort 0 [0]) (inTx 0 (sending .remote .transmitting))).mailbox ⟨0, 0⟩).abortPending = true := by
  decide +kernel

theorem test_clear :
    after (.clear 0 [0]) (inTx 0 (withBox .remote .done State.reset)) = State.reset := by decide +kernel

theorem test_readMailbox :
    (snapshot 0 (read 0 .mailbox 0 (withBox .remote .queued online))).map (·.data)
      = some [2, 0, 0, 0, 0, 0, 0, 0, 9, 2, 0, 0, 7, 1, 0, 0, 1] := by decide +kernel

theorem test_readCompletion :
    let s := (withBox .group .done State.reset).putCompletions 0 [0, 3]
    (snapshot 0 (read 0 .completion 0 s)).map (·.data) = some [0, 2, 0, 0, 0]
      ∧ (after (.readCompletion 0 5) (read 0 .completion 0 s)).completions 0 = [3]
      ∧ (after (.readCompletion 0 4) (read 0 .completion 0 s)).completions 0 = [0, 3] := by decide +kernel

/-! ## Channels and acceptance entries -/

theorem test_claim :
    (after (.claim 1 [2, 0]) (inTx 1 State.reset)).channel 2 = { owner := some 1, state := .opened }
      ∧ ((after (.claim 0 [2, 0]) (inTx 0 (receiver State.reset))).engine 0).lastResult = .ownedElsewhere := by
  decide +kernel

theorem test_releaseChannel :
    (after (.releaseChannel 1 [2]) (inTx 1 ((receiver State.reset).putSeq
        { outbound := [], inbound := [⟨3, 2, true⟩, ⟨3, 4, true⟩] }))).seq.inbound = [⟨3, 4, true⟩] := by
  decide +kernel

theorem test_halt :
    (after (.halt 1 [2]) (inTx 1 (receiver State.reset))).channel 2 = { owner := some 1, state := .halted } := by
  decide +kernel

theorem test_openChannel :
    ((after (.openChannel 0 [2]) (inTx 0 (receiver State.reset))).engine 0).lastResult = .notOwner := by decide +kernel

theorem test_readChannel :
    (snapshot 0 (read 0 .channel 2 (receiver State.reset))).map (·.data) = some [1, 1] := by decide +kernel

theorem test_setEntry :
    (after (.setEntry 1 [0, 1, 2, 0x0F, 0xFF, 0x0F, 0x00]) (inTx 1 State.reset)).entry 0
        = { owner := some 1, enabled := true, kind := .masked, first := 0xF00, second := 0xF00 }
      ∧ ((after (.setEntry 1 [0, 1, 1, 0, 6, 0, 5]) (inTx 1 State.reset)).engine 1).lastResult = .badArgument := by
  decide +kernel

theorem test_freeEntry :
    (after (.freeEntry 1 [0]) (inTx 1 (receiver State.reset))).entry 0 = Entry.free := by decide +kernel

theorem test_readEntry :
    (snapshot 0 (read 0 .entry 0 (receiver State.reset))).map (·.data) = some [1, 1, 0, 0, 5, 0, 0] := by
  decide +kernel

/-! ## Receive queues -/

theorem test_setQueue :
    ((after (.setQueue 1 [16, 1]) (inTx 1 State.reset)).queue 1).capacity = 16
      ∧ ((after (.setQueue 1 [17, 1]) (inTx 1 State.reset)).engine 1).lastResult = .badArgument := by decide +kernel

theorem test_peek :
    (snapshot 1 (read 1 .peek 0 (oneRecord State.reset))).map (·.data)
        = some [1, 3, 0xFF, 0xFF, 0, 5, 0, 0, 0, 1, 0]
      ∧ ((after (.peek 1 11) (read 1 .peek 0 (oneRecord State.reset))).queue 1).pin = true := by decide +kernel

theorem test_take :
    ((after (.take 1 11) (read 1 .take 0 (oneRecord State.reset))).queue 1).records = []
      ∧ (after (.take 1 11) (read 1 .take 0 (oneRecord State.reset))).store.holders[0] = 0
      ∧ ((after (.take 1 10) (read 1 .take 0 (oneRecord State.reset))).queue 1).records.length = 1 := by
  decide +kernel

theorem test_release :
    (after (.release 1 [0]) (inTx 1 (oneRecord State.reset))) = State.reset := by decide +kernel

theorem test_readQueue :
    (snapshot 1 (read 1 .queue 0 (oneRecord State.reset))).map (·.data) = some [1, 4, 0, 0, 0, 1, 1, 31] := by
  decide +kernel

/-! ## Line events -/

theorem test_turnBegins :
    (after .turnBegins (onLine online (fun l => { l with turn := 31 }))).line.round = 1
      ∧ (after .turnBegins (onLine online (fun l => { l with turn := 31 }))).line.turn = 0
      ∧ (after .turnBegins online).line.turn = 1 := by decide +kernel

theorem test_turnBegins_sends :
    let t := after .turnBegins (onLine (withBox .remote .queued online) (fun l => { l with turn := 5 }))
    t.line.own = some (ownFrame .remote) ∧ t.line.den = true ∧ (t.mailbox ⟨0, 0⟩).state = .sending
      ∧ t.seq.outbound = [⟨9, 2, false, true⟩] := by decide +kernel

theorem test_activityBegins :
    (after .activityBegins (onLine online (fun l => { l with turn := 2, betweenTurns := true }))).line.turn = 3
      ∧ (after .activityBegins online).line.activity = .receiving
      ∧ after .activityBegins State.reset = State.reset := by decide +kernel

theorem test_turnCheck :
    (receivingFrame .remote online).store.rxSlot = some 0 ∧ (receivingFrame .remote online).line.turnSlips = 0
      ∧ (after (.turnCheck [char 0x55, char 0x30]) (opening online)).line.turnSlips = 1
      ∧ (after (.turnCheck [char 0x54, char 0x30]) (opening online)).line.turnSlips = 0 := by decide +kernel

theorem test_receptionEnd_addressed :
    let t := after (.receptionEnd ((foreignFrame .remote).drop 2)) (receivingFrame .remote (receiver online))
    t.line.reply = some .accept
      ∧ (t.queue 1).records
          = [{ origin := .lineAddressed 3 2, arrival := 0, lossesBefore := 0, length := 1, slot := 0 }]
      ∧ t.seq.inbound = [⟨3, 2, false⟩] ∧ t.store.bytes[0][0] = 0xB1 := by decide +kernel

theorem test_receptionEnd_group :
    let t := after (.receptionEnd ((foreignFrame .group).drop 2)) (receivingFrame .group (receiver online))
    t.line.activity = .idle ∧ t.line.reply = none ∧ t.store.holders[0] = 1
      ∧ (t.queue 1).records
          = [{ origin := .lineGroup 3 5 0, arrival := 0, lossesBefore := 0, length := 1, slot := 0 }] := by
  decide +kernel

theorem test_collision :
    let t := after (.collision 1 (char 0x20)) (sending .remote .transmitting)
    (t.mailbox ⟨0, 0⟩).state = .queued ∧ t.fault.window = [.fail] ∧ t.line.turn = 4 ∧ t.line.turnSlips = 1
      ∧ t.line.round = 1 ∧ t.line.den = false := by decide +kernel

theorem test_checkWordReadBack :
    (after .checkWordReadBack (sending .remote .transmitting)).line.activity = .awaitingReply
      ∧ ((after .checkWordReadBack (onLine (withBox .remote .sending online) (fun l =>
          { l with activity := .idle }))).mailbox ⟨0, 0⟩).state = .sending := by decide +kernel

theorem test_transmissionEnd :
    ((after (.transmissionEnd (some (char 0x3C))) (sending .remote .awaitingReply)).mailbox ⟨0, 0⟩).outcome
        = some .accepted
      ∧ ((after (.transmissionEnd none) (sending .remote .awaitingReply)).mailbox ⟨0, 0⟩).state = .held := by
  decide +kernel

theorem test_replyByteStart :
    (after .replyByteStart (onLine online (fun l => { l with activity := .receiving, reply := some .defer }))).line.txd
      = [0x5A] := by decide +kernel

theorem test_replyByteEnd :
    (after .replyByteEnd (onLine online (fun l => { l with activity := .transmitting, den := true }))).line.den
      = false := by decide +kernel

theorem test_lineTimeEnd :
    (after .lineTimeEnd (onLine online (fun l => { l with
        activity := .receiving, reception := some { reception .remote with phase := .ended } }))).line.activity
      = .idle := by decide +kernel

theorem test_syncIdleCount :
    (after .syncIdleCount (online.putLineState .syncing)).member.lineState = .active
      ∧ (after .syncIdleCount (online.putLineState .syncing)).line.round = 0 := by decide +kernel

/-- Node 0 has a frame to send when the sync idle count is reached, with these commands behind it. -/
def syncZero (behind : List Instr) : State :=
  { inTx 0 (withBox .remote .queued (nodeZero.putLineState .syncing)) with pending := behind }

/-- The withdrawal of its only vote waits next: the first turn is due. -/
def dueZero : State := after .syncIdleCount (syncZero [.vote 0 [0]])

theorem test_syncIdleCount_takes_own_turn :
    ∀ behind ∈ [[], [Instr.turnBegins], [.vote 0 [1]], [.vote 1 [0]]],
      let t := after .syncIdleCount (syncZero behind)
      t.member.lineState = .active ∧ t.line.turn = 0 ∧ t.line.round = 0 ∧ t.line.own.isSome = true
        ∧ t.line.firstTurnDue = false := by decide +kernel

theorem test_syncIdleCount_then_withdrawal :
    dueZero.member.lineState = .active ∧ dueZero.line.turn = 31 ∧ dueZero.line.own = none
      ∧ (after (.vote 0 [0]) dueZero).member.lineState = .offline
      ∧ ((after (.vote 0 [0]) dueZero).mailbox ⟨0, 0⟩).outcome = some .withdrawn := by decide +kernel

theorem test_syncEntryIdleSeen :
    (after .syncEntryIdleSeen (onLine (online.putLineState .syncing) (fun l =>
      { l with busyUntilIdle := true }))).line.busyUntilIdle = false := by decide +kernel

/-! ## Hypotheses of the statements, met at the ends of their ranges -/

/-- A snapshot is held at the port, and it has the property. -/
def holds (s : State) (p : Port) (f : Snapshot → Bool) : Bool :=
  match (s.engine p).txn with
  | some { snapshot := some n, received := code :: _, .. } => f n && code == n.cmd.code
  | _ => false

theorem exists_of_holds {s : State} {p : Port} {f : Snapshot → Bool} (h : holds s p f = true) :
    ∃ n, s.HasSnapshot p n ∧ f n = true := by
  unfold holds at h
  split at h
  · rename_i code _ n ht
    simp only [Bool.and_eq_true, beq_iff_eq] at h
    exact ⟨n, by simp [ht, h.2], h.1⟩
  · exact absurd h (by decide)

/-- A port engine whose transaction holds this snapshot. -/
def withSnapshot (p : Port) (n : Snapshot) (s : State) : State :=
  s.putEngine p
    { s.engine p with csLow := true, txn := some { miso0 := 0, miso1 := 0, received := [n.cmd.code, 0],
                                                    snapshot := some n } }

theorem test_meets_StepTakesFrontCommand : State.reset.pending = [] := rfl

theorem test_meets_TransactionBegin :
    (online.engine 2).csLow = false ∧ (online.engine 2).prstLow = false ∧ online.inReset = false := by
  decide +kernel

theorem test_meets_HeldPort :
    ((after (.portReset 0) online).engine 0).prstLow = true ∧ (after .deviceReset online).inReset = true
      ∧ ((inTx 1 online).engine 1).csLow = true ∧ (online.engine 0).txn = none ∧ (inTx 1 online).InTransaction 1 := by
  decide +kernel

theorem test_meets_CutCommands :
    (inTx 1 online).InTransaction 1 ∧ ([] : List Byte).length < 1 ∧ ([6] : List Byte).length < 2
      ∧ ([6, 4, 1] : List Byte).length < 4 ∧ ([0, 1, 1, 0, 6, 0] : List Byte).length < 7
      ∧ ([0, 1, 31, 2, 0, 0, 7, 1, 0, 0] : List Byte).length < 11
      ∧ (0x40#8).toNat ≤ 64 ∧ (List.replicate 63 (0 : Byte)).length < (0x40#8).toNat := by decide +kernel

theorem test_meets_CommandCodes :
    (inTx 1 online).InTransaction 1 ∧ namesCommand 0x00 = false ∧ namesCommand 0x54 = false
      ∧ namesCommand 0xFF = false ∧ ([0] : List Byte) ≠ [] := by decide +kernel

theorem test_releaseRow :
    releaseRow 1 [] = .transactionWithoutCommand 1 ∧ releaseRow 1 [0x01, 2] = .vote 1 [2]
      ∧ releaseRow 2 [0x13, 3] = .clear 2 [3] ∧ releaseRow 0 [0x22] = .halt 0 []
      ∧ releaseRow 1 [0x42, 0, 0, 0] = .take 1 2 ∧ releaseRow 1 [0x24] = .readChannel 1 0
      ∧ releaseRow 1 [0x54, 7] = .badCommand 1 0x54 [7] := by decide +kernel

theorem test_received_bytes :
    ((after (.transactionBegin 1) online).engine 1).txn.map (·.received) = some []
      ∧ ((read 1 .mailbox 3 online).engine 1).txn.map (·.received) = some [0x14, 3]
      ∧ after (.vote 1 [1]) (read 1 .mailbox 3 online) = read 1 .mailbox 3 online := by decide +kernel

theorem test_meets_SnapshotIsHeldAndPinned :
    (inTx 1 (oneRecord online)).InTransaction 1 ∧ ((inTx 1 (oneRecord online)).queue 1).records.isEmpty = false
      ∧ ((inTx 1 online).queue 1).records.isEmpty = true := by decide +kernel

theorem test_meets_ReadsWithoutSideEffect :
    (∃ n, (read 0 .mailbox 4 online).HasSnapshot 0 n ∧ (n.cmd == .mailbox && n.verdict == .badArgument) = true)
      ∧ (∃ n, (read 0 .channel 15 online).HasSnapshot 0 n
          ∧ (n.cmd == .channel && n.verdict == .valid && decide (1 < n.data.length)) = true)
      ∧ (∃ n, (read 0 .entry 23 online).HasSnapshot 0 n
          ∧ (n.cmd == .entry && n.verdict == .valid && decide (n.data.length ≤ 7)) = true)
      ∧ ∃ n, (withSnapshot 0 (emptySnapshot .queue 0) online).HasSnapshot 0 n
          ∧ (n.cmd == .queue && n.verdict == .empty) = true :=
  ⟨exists_of_holds (by decide +kernel), exists_of_holds (by decide +kernel), exists_of_holds (by decide +kernel),
    exists_of_holds (by decide +kernel)⟩

theorem test_meets_SetPort_Acknowledge :
    (inTx 1 online).InTransaction 1 ∧ 32 ≤ (0x20#8).toNat ∧ 1 < (0x02#8).toNat ∧ (0x1F#8).toNat < 32
      ∧ (0x01#8).toNat ≤ 1 := by decide +kernel

/-- Mailbox 0 of port 0 waits for room on channel 2 of port 1, whose queue holds one record. -/
def localWaiting : State := withBox .localHandOff .waitingSpace (receiver (oneRecord online))

theorem test_meets_PortReset :
    (online.engine 1).prstLow = false ∧ (inTx 1 online).InTransaction 1
      ∧ (∀ q, q ≠ 0 → online.vote q = .none) ∧ online.vote 0 ≠ .none ∧ online.member.lineState = .active
      ∧ ⟨0, 0⟩ ∈ localWaiting.sched.refs ∧ (localWaiting.mailbox ⟨0, 0⟩).state = .waitingSpace
      ∧ (localWaiting.mailbox ⟨0, 0⟩).record = some (record .localHandOff)
      ∧ (localWaiting.channel 2).owner = some 1
      ∧ (∀ r ∈ localWaiting.sched.refs, r.port ≠ 0 → localWaiting.isLocal r = false) := by decide +kernel

/-- LOCAL mailbox 0 of port 0 is QUEUED, and the next round boundary ends its hold-off. -/
def localHolding : State :=
  let s := withBox .localHandOff .queued (onLine (receiver online) (fun l => { l with turn := 31 }))
  s.putMailbox ⟨0, 0⟩ { s.mailbox ⟨0, 0⟩ with holdOff := 1 }

theorem test_meets_local_decisions :
    (∀ s ∈ [localWaiting, localHolding], s.OnlyLocal ⟨0, 0⟩ (record .localHandOff))
      ∧ (localWaiting.mailbox ⟨0, 0⟩).state = .waitingSpace ∧ (localWaiting.queue 1).records ≠ []
      ∧ (localWaiting.queue 1).capacity < (5#8).toNat ∧ (localHolding.mailbox ⟨0, 0⟩).state = .queued
      ∧ (localHolding.mailbox ⟨0, 0⟩).holdOff = 1 ∧ localHolding.blocked ⟨0, 0⟩ = false
      ∧ localHolding.channel 2 = { owner := some 1, state := .opened } ∧ (localHolding.queue 1).full = false
      ∧ localHolding.LowestFree 0 := by decide +kernel

theorem test_release_serves_waiting :
    ((after (.release 1 [0]) (inTx 1 localWaiting)).mailbox ⟨0, 0⟩).outcome = some .accepted
      ∧ ((after (.release 1 [0]) (inTx 1 (localWaiting.putChannel 2 { owner := some 1, state := .halted })
          )).mailbox ⟨0, 0⟩).outcome = some .refused
      ∧ ((after .turnBegins localHolding).mailbox ⟨0, 0⟩).outcome = some .accepted := by decide +kernel

theorem test_meets_Vote :
    (inTx 0 online).InTransaction 0 ∧ (inTx 0 online).vote 0 = .full ∧ Vote.listen ≠ (inTx 0 online).vote 0
      ∧ 2 < (0x03#8).toNat ∧ (sending .remote .transmitting).line.own ≠ none
      ∧ (sending .remote .transmitting).member.lineState = .active := by decide +kernel

/-- The node in SYNCING by the vote of port 0. -/
def syncing : State := online.putLineState .syncing

theorem test_meets_EntryToOffline :
    (inTx 0 (withBox .remote .queued online)).InTransaction 0 ∧ (withBox .remote .queued online).PendingListSound
      ∧ (withBox .remote .queued online).vote 0 ≠ .none
      ∧ (∀ q, q ≠ 0 → (withBox .remote .queued online).vote q = .none)
      ∧ (withBox .remote .queued online).member.lineState = .active
      ∧ (withBox .remote .queued online).line.own = none ∧ syncing.member.lineState = .syncing
      ∧ (withBox .remote .queued online).withdrawable ⟨0, 0⟩ = true
      ∧ (withBox .remote .queued online).isLocal ⟨1, 0⟩ = false
      ∧ (withBox .remote .queued online).withdrawable ⟨1, 0⟩ = false := by decide +kernel

theorem test_meets_Configure :
    (inTx 0 online).InTransaction 0 ∧ online.member.lineState ≠ .offline ∧ State.reset.member.lineState = .offline
      ∧ 31 < (32#8).toNat ∧ 4 < (5#8).toNat ∧ 1 < (2#8).toNat
      ∧ (31#8).toNat ≤ 31 ∧ (4#8).toNat < 5 ∧ (1#8).toNat ≤ 1 := by decide +kernel

theorem test_meets_ReadLine :
    (inTx 0 online).InTransaction 0 ∧ 1 < (2#8).toNat ∧ (1#8).toNat ≤ 1
      ∧ (∃ n, (read 0 .line 2 online).HasSnapshot 0 n ∧ (n.cmd == .line && n.verdict == .badArgument) = true)
      ∧ (∃ n, (read 0 .line 0 online).HasSnapshot 0 n
          ∧ (n.cmd == .line && n.verdict == .valid && n.data.length == 20 && n.effect == .none) = true)
      ∧ ∃ n, (read 0 .line 1 online).HasSnapshot 0 n
          ∧ (n.cmd == .line && n.verdict == .valid && n.data.length == 20 && n.effect == .reduce 0 0) = true := by
  refine ⟨by decide +kernel, by decide, by decide, exists_of_holds (by decide +kernel),
    exists_of_holds (by decide +kernel), exists_of_holds (by decide +kernel)⟩

/-- The node with this confinement state and window. -/
def confined (st : ConfinementState) (w : List Health) (s : State) : State :=
  s.putFault { window := w, state := st, cleanRounds := 0, spoiled := false }

theorem test_meets_Resume :
    (inTx 0 (confined .silenced [] online)).InTransaction 0 ∧ (confined .silenced [] online).fault.state = .silenced
      ∧ online.fault.state = .engaged ∧ (confined .guarded [] online).fault.state = .guarded
      ∧ (confined .readyToResume [] online).fault.state = .readyToResume := by decide +kernel

theorem test_meets_AppendedOutcome :
    (confined .engaged (List.replicate 16 .ok) online).fault.window.length = 16
      ∧ ((confined .engaged [.fail, .fail, .fail] online).appendHealth .noReply).fault.state = .guarded
      ∧ ((confined .guarded (List.replicate 9 .fail) online).appendHealth .collision).fault.state = .silenced
      ∧ ((confined .guarded (.fail :: List.replicate 12 .ok ++ [.fail, .fail, .fail]) online).appendHealth
          .sentClean).fault.state = .engaged
      ∧ ((confined .guarded (List.replicate 4 .fail) online).appendHealth .accept).fault.state = .guarded := by
  decide +kernel

theorem test_meets_LoadWrites :
    (inTx 0 online).InTransaction 0 ∧ (online.mailbox ⟨0, 3⟩).state = .vacant ∧ (64#8).toNat ≤ 64
      ∧ (64#8).toNat ≤ (List.replicate 64 (0 : Byte)).length ∧ (31#8).toNat = (31#5).toNat
      ∧ (15#8).toNat = (15 : ChannelNo).val ∧ 256 * (0x0F#8).toNat + (0xFF#8).toNat = (0xFFF#12).toNat
      ∧ (15#8).toNat = (15#4).toNat := by decide +kernel

theorem test_meets_LoadAndRequestRefusals :
    (inTx 0 (withBox .remote .queued online)).InTransaction 0 ∧ 3 < (4#8).toNat ∧ 64 < (65#8).toNat
      ∧ ((withBox .remote .queued online).mailbox ⟨0, 0⟩).state = .queued
      ∧ ((withBox .remote .loaded online).mailbox ⟨0, 0⟩).state = .loaded
      ∧ 2 < (3#8).toNat ∧ 31 < (32#8).toNat ∧ 15 < (16#8).toNat ∧ 4095 < 256 * (0x10#8).toNat + (0#8).toNat
      ∧ (withBox .remote .loaded State.reset).member.lineState = .offline
      ∧ (record .remote).kind ≠ .localHandOff
      ∧ ({ record .remote with dest := 6 } : MailRecord).dest = online.member.config.nodeAddress := by
  decide +kernel

theorem test_meets_RequestQueues :
    (inTx 0 (withBox .remote .loaded online)).InTransaction 0
      ∧ ((withBox .remote .loaded online).mailbox ⟨0, 0⟩).state = .loaded
      ∧ ((withBox .group .done online).mailbox ⟨0, 0⟩).state = .done
      ∧ ((withBox .remote .loaded online).mailbox ⟨0, 0⟩).record = some (record .remote)
      ∧ online.member.lineState ≠ .offline ∧ (record .remote).dest ≠ online.member.config.nodeAddress := by
  decide +kernel

/-- Port 0 has a LOCAL record to channel 2 in its mailbox 0. -/
def localLoaded (s : State) : State := inTx 0 (withBox .localHandOff .loaded s)

/-- Its record asks for this hold-off. -/
def holdingOff (rounds : Byte) (s : State) : State :=
  s.putMailbox ⟨0, 0⟩ { s.mailbox ⟨0, 0⟩ with
    record := some { record .localHandOff with holdOffRounds := rounds } }

/-- Mailbox 0 of port 1 waits on the same channel. -/
def behind (s : State) : State :=
  (s.putMailbox ⟨1, 0⟩ { Mailbox.vacant with record := some (record .localHandOff), state := .waitingSpace }).putRefs
    [⟨1, 0⟩]

theorem test_meets_RequestQueues_local :
    (∀ s ∈ [holdingOff 1 (localLoaded online), behind (localLoaded online)],
      s.InTransaction 0 ∧ s.PendingListSound ∧ s.NoEligibleLocal ∧ (s.mailbox ⟨0, 0⟩).state = .loaded)
      ∧ ({ record .localHandOff with holdOffRounds := 1 } : MailRecord).holdOffRounds ≠ 0
      ∧ ∃ r ∈ (behind (localLoaded online)).sched.refs,
          (behind (localLoaded online)).destination r = some (.localHandOff 2) := by decide +kernel

/-- No slot is free. -/
def noSlot (s : State) : State := s.putStore { s.store with holders := .replicate 32 1 }

theorem test_meets_RequestDecides :
    (∀ s ∈ [localLoaded online, localLoaded (receiver online), localLoaded (noSlot (receiver online)),
        localLoaded ((receiver (oneRecord online)).setQueue 1 1 .dropNew)],
      s.InTransaction 0 ∧ s.PendingListSound ∧ s.NoEligibleLocal ∧ (s.mailbox ⟨0, 0⟩).state = .loaded
        ∧ (s.mailbox ⟨0, 0⟩).record = some (record .localHandOff)
        ∧ ∀ r ∈ s.sched.refs, s.destination r ≠ some (.localHandOff 2))
      ∧ (online.channel 2).receiver = none ∧ ((receiver online).channel 2).receiver = some 1
      ∧ ((receiver online).queue 1).full = false ∧ (receiver online).lowestFree = some 0
      ∧ (noSlot (receiver online)).freeSlots = []
      ∧ (((receiver (oneRecord online)).setQueue 1 1 .dropNew).queue 1).full = true := by decide +kernel

theorem test_meets_Abort_Clear :
    (inTx 0 online).InTransaction 0 ∧ 3 < (4#8).toNat ∧ (3#8).toNat = (3 : MailboxIndex).val
      ∧ ∀ st ∈ [MailState.loaded, .queued, .sending, .held, .waitingSpace, .done, .retiring],
          ((withBox .remote st online).mailbox ⟨0, 0⟩).state = st := by decide +kernel

theorem test_meets_ReadCommandsReport :
    (inTx 0 (withBox .remote .queued online)).InTransaction 0
      ∧ ((withBox .remote .queued online).mailbox ⟨0, 0⟩).record = some (record .remote)
      ∧ (online.mailbox ⟨0, 3⟩) = Mailbox.vacant ∧ 3 < (4#8).toNat ∧ 15 < (16#8).toNat ∧ 23 < (24#8).toNat
      ∧ (3#8).toNat = (3 : MailboxIndex).val ∧ (15#8).toNat = (15 : ChannelNo).val
      ∧ (23#8).toNat = (23 : EntryNo).val := by decide +kernel

theorem test_meets_ReadCompletion :
    (inTx 0 online).InTransaction 0 ∧ online.completions 0 = []
      ∧ (online.putCompletions 0 [0]).completions 0 = [0]
      ∧ (∃ n, (read 0 .completion 0 online).HasSnapshot 0 n ∧ (n.cmd == .completion && n.verdict == .empty) = true)
      ∧ ∃ n, (read 0 .completion 0 ((withBox .group .done online).putCompletions 0 [0])).HasSnapshot 0 n
          ∧ (n.cmd == .completion && n.verdict == .valid && n.data.length == 5 && n.effect == .dropCompletion 0)
            = true :=
  ⟨by decide +kernel, by decide +kernel, by decide +kernel, exists_of_holds (by decide +kernel),
    exists_of_holds (by decide +kernel)⟩

theorem test_meets_Channels :
    (inTx 1 (receiver online)).InTransaction 1 ∧ (inTx 1 (receiver online)).ChannelsSound
      ∧ ((receiver online).channel 2).owner = some 1 ∧ (online.channel 15).state = .closed
      ∧ ((receiver online).channel 2).owner ≠ some 0 ∧ 15 < (16#8).toNat ∧ 1 < (2#8).toNat := by decide +kernel

theorem test_meets_Entries :
    (inTx 1 (receiver online)).InTransaction 1 ∧ ((receiver online).entry 0).owner = some 1
      ∧ ((receiver online).entry 23).owner = none ∧ 23 < (24#8).toNat ∧ 4095 < 256 * (0x10#8).toNat + (0#8).toNat
      ∧ (0xFFF#12).toNat = 256 * (0x0F#8).toNat + (0xFF#8).toNat ∧ EntryKind.span.code = 1 ∧ (5#12) ≤ (5#12)
      ∧ 256 * (0#8).toNat + (4#8).toNat < 256 * (0#8).toNat + (5#8).toNat := by decide +kernel

theorem test_meets_EntryMatch :
    (receiver online).groupMatch 1 5 = some 0 ∧ (receiver online).groupMatch 0 5 = none := by decide +kernel

theorem test_meets_SetQueue :
    (inTx 1 (oneRecord online)).InTransaction 1 ∧ 16 < (17#8).toNat ∧ (16#8).toNat ≤ 16 ∧ (1#8) ≠ 0
      ∧ ((oneRecord online).queue 1).records.length ≤ (1#8).toNat
      ∧ (1#8).toNat < ((oneRecord online).putQueue 1 { Queue.initial with
          records := ((oneRecord online).queue 1).records ++ ((oneRecord online).queue 1).records }
            |>.queue 1).records.length
      ∧ (oneRecord online).NoLocalPending ∧ (4#8).toNat ≤ ((oneRecord online).queue 1).capacity := by decide +kernel

theorem test_meets_PeekAndTake :
    (inTx 1 (oneRecord online)).InTransaction 1 ∧ ((oneRecord online).queue 1).records ≠ []
      ∧ (online.queue 1).records = [] ∧ (oneRecord online).NoLocalPending
      ∧ (∃ n, (read 1 .peek 0 (oneRecord online)).HasSnapshot 1 n
          ∧ (n.cmd == .peek && n.verdict == .valid && n.data.length == 11) = true)
      ∧ (∃ n, (read 1 .take 0 (oneRecord online)).HasSnapshot 1 n
          ∧ (n.cmd == .take && n.verdict == .valid && n.data.length == 11) = true)
      ∧ (∃ n, (read 1 .peek 0 online).HasSnapshot 1 n ∧ (n.cmd == .peek && n.verdict == .empty) = true)
      ∧ ∃ n, (read 1 .take 0 online).HasSnapshot 1 n ∧ (n.cmd == .take && n.verdict == .empty) = true :=
  ⟨by decide +kernel, by decide +kernel, by decide +kernel, by decide +kernel, exists_of_holds (by decide +kernel),
    exists_of_holds (by decide +kernel), exists_of_holds (by decide +kernel), exists_of_holds (by decide +kernel)⟩

/-- The queue of port 1 with one record, at capacity 1, under this policy and persistent pin. -/
def fullQueue (o : OverflowPolicy) (pin : Bool) : State :=
  let s := oneRecord online
  s.putQueue 1 { s.queue 1 with capacity := 1, policy := o, pin := pin }

theorem test_meets_Append :
    (∀ s ∈ [oneRecord online, fullQueue .dropNew false, fullQueue .displace true, fullQueue .displace false],
        (s.queue 1).Sound)
      ∧ ((oneRecord online).queue 1).full = false ∧ ((fullQueue .dropNew false).queue 1).full = true
      ∧ ((fullQueue .displace true).queue 1).tailPinned = true
      ∧ ((fullQueue .displace false).queue 1).full = true
      ∧ ((fullQueue .displace false).queue 1).tailPinned = false
      ∧ ((fullQueue .displace false).queue 1).records.map (·.slot) = [0] := by decide +kernel

theorem test_meets_TurnBegins :
    online.member.lineState = .active ∧ online.line.activity = .idle ∧ online.line.turn ≠ 31
      ∧ online.line.turn + 1 ≠ online.member.config.nodeAddress
      ∧ (onLine online (fun l => { l with turn := 5 })).line.turn + 1 = online.member.config.nodeAddress
      ∧ (∀ r ∈ online.sched.refs, online.eligible r = false)
      ∧ (onLine online (fun l => { l with turn := 31 })).line.turn = 31 ∧ online.member.config.nodeAddress ≠ 0
      ∧ nodeZero.member.lineState = .active ∧ nodeZero.member.config.nodeAddress = 0
      ∧ online.line.firstTurnDue = false ∧ dueZero.line.firstTurnDue = true ∧ dueZero.line.activity = .idle := by
  decide +kernel

/-- Mailbox 0 of port 0 is QUEUED, and the own turn is the next one. -/
def beforeOwnTurn (share : SharePolicy) (rotation : Port) (o : TransmitOrder) : State :=
  let s := onLine (withBox .remote .queued online) (fun l => { l with turn := 5 })
  ({ s with member := { s.member with config := { s.member.config with share := share } } }.putRotation
    rotation).putOrder 0 o

theorem test_meets_OwnTurn :
    (∀ s ∈ [beforeOwnTurn .key 0 .key, beforeOwnTurn .rotate 0 .key, beforeOwnTurn .rotate 1 .arrival,
        beforeOwnTurn .rotate 2 .key],
      s.member.lineState = .active ∧ s.mode = some .full ∧ s.line.activity = .idle ∧ s.fault.state = .engaged
        ∧ s.line.turn ≠ 31 ∧ s.line.turn + 1 = s.member.config.nodeAddress ∧ s.line.firstTurnDue = false ∧ ⟨0, 0⟩ ∈ s.sched.refs
        ∧ s.eligible ⟨0, 0⟩ = true ∧ (s.mailbox ⟨0, 0⟩).record = some (record .remote)
        ∧ s.earlier ⟨0, 0⟩ = [] ∧ (∀ q ∈ s.sched.refs, s.eligible q = true → s.key ⟨0, 0⟩ ≤ s.key q)
        ∧ s.eligiblesOf 1 = [] ∧ s.eligiblesOf 2 = []) := by decide +kernel

theorem test_meets_OwnTurn_due :
    dueZero.member.lineState = .active ∧ dueZero.mode = some .full ∧ dueZero.line.activity = .idle
      ∧ dueZero.fault.state = .engaged ∧ dueZero.line.firstTurnDue = true ∧ (0#5) = dueZero.member.config.nodeAddress
      ∧ ⟨0, 0⟩ ∈ dueZero.sched.refs ∧ dueZero.eligible ⟨0, 0⟩ = true
      ∧ (dueZero.mailbox ⟨0, 0⟩).record = some (record .remote) ∧ dueZero.earlier ⟨0, 0⟩ = [] := by decide +kernel

theorem test_meets_RoundBoundary :
    (onLine online (fun l => { l with turn := 31 })).line.turn = 31
      ∧ (onLine online (fun l => { l with turn := 31 })).line.firstTurnDue = false
      ∧ (withBox .localHandOff .queued online).isLocal ⟨0, 0⟩ = true
      ∧ (withBox .remote .held online).isLocal ⟨0, 0⟩ = false
      ∧ ((withBox .localHandOff .waitingSpace online).mailbox ⟨0, 0⟩).state ∉ [.queued, .held]
      ∧ (confined .silenced [] online).fault.cleanRounds < 3
      ∧ { (confined .silenced [] online).fault with cleanRounds := 3 }.cleanRounds = 3 := by decide +kernel

/-- Sequence tables of which this one pair is an entry, or that hold 32 entries. -/
def fullTables : State :=
  State.reset.putSeq
    { outbound := (List.finRange 32).map (fun i => ⟨BitVec.ofNat 5 i.val, 2, false, true⟩), inbound := [] }

theorem test_meets_SequenceTables :
    fullTables.SequenceSound ∧ fullTables.seq.outbound.length = 32
      ∧ (⟨9, 2, false, true⟩ : OutEntry) ∈ fullTables.seq.outbound
      ∧ (∀ e ∈ fullTables.seq.outbound, ¬ (e.node = 9 ∧ e.channel = 3))
      ∧ fullTables.busyEntry ⟨31, 2, false, true⟩ = false
      ∧ fullTables.seq.outbound = fullTables.seq.outbound.dropLast ++ ⟨31, 2, false, true⟩ :: []
      ∧ State.reset.SequenceSound ∧ State.reset.seq.outbound.length < 32
      ∧ ((receiver State.reset).putSeq { outbound := [], inbound := [⟨3, 2, true⟩] }).SequenceSound := by
  decide +kernel

theorem test_meets_ActivityBegins :
    State.reset.member.lineState = .offline ∧ online.member.lineState ≠ .offline
      ∧ online.line.busyUntilIdle = false ∧ online.line.activity = .idle ∧ online.line.betweenTurns = false
      ∧ syncing.member.lineState = .syncing ∧ dueZero.line.firstTurnDue = true
      ∧ dueZero.member.lineState ≠ .syncing ∧ dueZero.line.busyUntilIdle = false ∧ dueZero.line.activity = .idle
      ∧ (onLine online (fun l => { l with betweenTurns := true })).line.betweenTurns = true
      ∧ (onLine online (fun l => { l with betweenTurns := true, turn := 31 })).line.turn = 31 := by decide +kernel

theorem test_meets_TurnCheck :
    (∀ s ∈ [opening online, opening syncing, opening (noSlot online)],
      ∃ rx, s.Receives rx ∧ rx.phase = .opening ∧ rx.chars ++ [char 0x55, char 0x18] = [char 0x55, char 0x18])
      ∧ (3#5).toNat = (char 0x18).value.toNat / 8 ∧ (char 0x18).value.toNat % 4 = 0
      ∧ (char 0x19).value.toNat % 4 ≠ 0 ∧ (char 0x54).value ≠ 0x55
      ∧ (6#5).toNat = (char 0x34).value.toNat / 8 ∧ (6#5) = online.member.config.nodeAddress
      ∧ (opening online).line.turn = 3 ∧ (2#5) < (opening online).line.turn ∧ (opening online).line.turn ≤ (4#5)
      ∧ (opening online).lowestFree = some 0 ∧ (opening (noSlot online)).freeSlots = [] := by
  refine ⟨fun s hs => ?_, by decide +kernel⟩
  simp only [List.mem_cons, List.not_mem_nil, or_false] at hs
  rcases hs with rfl | rfl | rfl <;> exact ⟨_, ⟨rfl, rfl⟩, rfl, rfl⟩

theorem test_meets_ReceptionEnd :
    (receivingFrame .remote online).Receives (reception .remote)
      ∧ (reception .remote).phase.endsAs (classify (foreignFrame .remote)) = true
      ∧ (classify (foreignFrame .remote)).cls = .good ∧ (classify (foreignFrame .group)).cls = .good
      ∧ (classify (foreignFrame .group)).h0.getLsbD 2 = true
      ∧ (classify ((foreignFrame .remote).take 5)).cls = .checkError
      ∧ (reception .remote).phase.endsAs (classify ((foreignFrame .remote).take 5)) = true
      ∧ (receivingFrame .group syncing).Receives { reception .group with activeAtStart := false }
      ∧ (classify (foreignFrame .group)).sender ≠ syncing.member.config.nodeAddress
      ∧ (onLine online (fun l => { l with
          activity := .receiving, reception := some { reception .group with activeAtStart := false } })).Receives
          { reception .group with activeAtStart := false }
      ∧ (receivingFrame .remote nodeZero).Receives (reception .remote)
      ∧ (classify (foreignFrame .remote)).body = .addressed 6 2 true true
      ∧ (6#5) ≠ nodeZero.member.config.nodeAddress ∧ (receivingFrame .remote nodeZero).NoLocalPending := by
  decide +kernel

theorem test_meets_ReplyDecision :
    (∀ s ∈ [receivingFrame .remote online, receivingFrame .remote (receiver online),
        receivingFrame .remote (receiver (confined .silenced [] online)),
        receivingFrame .remote (noSlot (receiver online))],
      s.Receives (reception .remote) ∧ s.member.lineState = .active)
      ∧ (classify (foreignFrame .remote)).cls = .good
      ∧ (classify (foreignFrame .remote)).body = .addressed online.member.config.nodeAddress 2 true true
      ∧ ((receivingFrame .remote (receiver online)).channel 2) = { owner := some 1, state := .opened }
      ∧ (online.channel 2).state ≠ .opened
      ∧ ((receivingFrame .remote (receiver online)).sequenceCheck 3 2 true true).2 = false
      ∧ (((receivingFrame .remote (receiver online)).putSeq { outbound := [], inbound := [⟨3, 2, false⟩] }
          ).sequenceCheck 3 2 true false).2 = true
      ∧ (receivingFrame .remote (receiver online)).heldSlot = some 0
      ∧ (receivingFrame .remote (noSlot (receiver online))).heldSlot = none
      ∧ (confined .silenced [] online).fault.state = .silenced ∧ online.mode ≠ some .listen := by decide +kernel

theorem test_meets_GroupDelivery :
    (∀ s ∈ [receivingFrame .group (receiver online), receivingFrame .group (noSlot (receiver online))],
      s.Receives (reception .group) ∧ s.member.lineState = .active ∧ s.NoLocalPending
        ∧ s.groupMatch 1 5 = some 0 ∧ s.groupMatch 0 5 = none)
      ∧ (classify (foreignFrame .group)).cls = .good ∧ (classify (foreignFrame .group)).body = .group 5
      ∧ (receivingFrame .group (receiver online)).heldSlot = some 0
      ∧ (receivingFrame .group (noSlot (receiver online))).heldSlot = none := by decide +kernel

theorem test_meets_Collision :
    (sending .remote .transmitting).Sends .transmitting (ownFrame .remote)
      ∧ (ownFrame .remote).chars[0]? = some 0x55 ∧ (ownFrame .remote).chars[1]? = some 0x30
      ∧ (ownFrame .remote).chars[2]? = some 0x4A ∧ (char 0x20).value ≠ 0x30 ∧ (char 0x20).value.toNat % 4 = 0
      ∧ (4#5).toNat = (char 0x20).value.toNat / 8 ∧ (char 0x31).value.toNat % 4 ≠ 0
      ∧ (sending .remote .transmitting).member.lineState = .active
      ∧ (sending .remote .transmitting).line.turn = (sending .remote .transmitting).member.config.nodeAddress
      ∧ ((sending .remote .transmitting).mailbox ⟨0, 0⟩).state = .sending
      ∧ ((sending .remote .transmitting).mailbox ⟨0, 0⟩).attempts ≤ (record .remote).retryLimit.toNat
      ∧ ((sending .remote .transmitting).putLineState .leaving).member.lineState = .leaving
      ∧ ⟨0, 0⟩ ∈ (sending .remote .transmitting).sched.refs
      ∧ (after (.abort 0 [0]) (inTx 0 (sending .remote .transmitting))).Sends .transmitting (ownFrame .remote)
      ∧ ((after (.abort 0 [0]) (inTx 0 (sending .remote .transmitting))).mailbox ⟨0, 0⟩).abortPending = true
      ∧ (after (.portReset 0) (sending .remote .transmitting)).Sends .transmitting (ownFrame .remote)
      ∧ ((after (.portReset 0) (sending .remote .transmitting)).mailbox ⟨0, 0⟩).state = .retiring := by
  decide +kernel

theorem test_collision_leaving :
    let t := after (.collision 1 (char 0x20)) ((sending .remote .transmitting).putLineState .leaving)
    (t.mailbox ⟨0, 0⟩).outcome = some .withdrawn ∧ t.member.lineState = .offline := by decide +kernel

theorem test_meets_CleanReadback :
    (sending .remote .transmitting).Sends .transmitting (ownFrame .remote)
      ∧ (ownFrame .remote).body = .addressed 9 2 false true
      ∧ (receiver (sending .group .transmitting)).Sends .transmitting (ownFrame .group)
      ∧ (ownFrame .group).body = .group 5 ∧ (sending .group .transmitting).NoLocalPending
      ∧ (receiver (sending .group .transmitting)).groupMatch 1 5 = some 0
      ∧ (receiver (sending .group .transmitting)).groupMatch 2 5 = none
      ∧ (receiver (sending .group .transmitting)).lowestFree = some 0
      ∧ (noSlot (receiver (sending .group .transmitting))).freeSlots = []
      ∧ ((sending .group .transmitting).mailbox ⟨0, 0⟩).state = .sending
      ∧ ((sending .group .transmitting).mailbox ⟨0, 0⟩).abortPending = false := by decide +kernel

theorem test_meets_TransmissionEnd :
    (sending .remote .awaitingReply).Sends .awaitingReply (ownFrame .remote)
      ∧ (ownFrame .remote).body = .addressed 9 2 false true
      ∧ (sending .remote .awaitingReply).member.lineState = .active
      ∧ ((sending .remote .awaitingReply).mailbox ⟨0, 0⟩).record = some (record .remote)
      ∧ ((sending .remote .awaitingReply).mailbox ⟨0, 0⟩).attempts ≤ (record .remote).retryLimit.toNat
      ∧ (char 0x00).value ∉ [0x3C, 0x5A, 0x69] ∧ ⟨0, 0⟩ ∈ (sending .remote .awaitingReply).sched.refs := by
  decide +kernel

theorem test_meets_Frames :
    (ownFrame .remote).payload.length ≤ 64 ∧ (char 0x54).value ≠ 0x55 ∧ (char 0x55).framingError = false
      ∧ (char 0x19).value.toNat % 4 ≠ 0 ∧ (char 0x18).value.toNat % 4 = 0
      ∧ (char 0x18).value.getLsbD 2 = false ∧ (char 0x31).value.toNat % 2 = 1 ∧ (char 0x1C).value.getLsbD 2 = true
      ∧ (char 0x21).value.toNat % 16 ≠ 0 ∧ (char 0x20).value.toNat % 16 = 0
      ∧ 64 < (char 65).value.toNat ∧ (char 64).value.toNat ≤ 64
      ∧ (foreignFrame .remote).drop 5 = [char 0xB1] ++ char (checkChars (checkWord [0x18, 0x36, 0x20, 1, 0xB1]))[0]!
          :: char (checkChars (checkWord [0x18, 0x36, 0x20, 1, 0xB1]))[1]! :: [] := by decide +kernel

theorem test_classify_by_arrival :
    (classify [char 0x55, char 0x18, { value := 0x31, framingError := true }]).Is .formatError true false
      ∧ (classify [char 0x55, char 0x1C, char 0x31, char 0x20, char 65]).Is .formatError true false
      ∧ (classify [char 0x55]).Is .checkError false false ∧ (classify [char 0x54]).Is .formatError false false
      ∧ (classify ((foreignFrame .remote).set 6 (char 0))).Is .checkError true true := by decide +kernel

theorem test_meets_ReplyLineTimeAndSync :
    (onLine online (fun l => { l with activity := .receiving, reply := some .accept })).line.reply = some .accept
      ∧ (onLine online (fun l => { l with activity := .transmitting })).line.own = none
      ∧ (onLine online (fun l => { l with
          activity := .receiving, reception := some { reception .remote with phase := .ended } })).Receives
          { reception .remote with phase := .ended }
      ∧ (onLine syncing (fun l => { l with busyUntilIdle := true })).line.busyUntilIdle = true
      ∧ syncing.member.lineState = .syncing ∧ syncing.line.activity = .idle
      ∧ (syncZero [.vote 0 [0]]).syncByIdle.withdrawnBy (.vote 0 [0]) = true
      ∧ (syncZero [.turnBegins]).syncByIdle.withdrawnBy .turnBegins = false
      ∧ (inTx 0 syncing).InTransaction 0 ∧ (inTx 0 syncing).line.own = none ∧ (inTx 0 syncing).vote 0 ≠ .none
      ∧ (∀ q, q ≠ 0 → (inTx 0 syncing).vote q = .none) := by decide +kernel

/-- The front command of a sound state, waiting. -/
def waiting : State := { (sending .remote .transmitting) with pending := [.checkWordReadBack] }

theorem test_meets_invariants_tables :
    waiting.ChannelsSound ∧ waiting.SequenceSound ∧ waiting.EntriesSound := by decide +kernel

theorem test_meets_invariants_ports :
    (read 1 .mailbox 3 waiting).PortsSound ∧ waiting.PortsSound := by decide +kernel

theorem test_meets_invariants_outbound :
    waiting.PendingListSound ∧ waiting.seq.outbound.length ≤ 32 := by decide +kernel

theorem test_meets_invariants_line :
    (waiting.LineSound ∧ waiting.DriverSound) ∧ (dueZero.LineSound ∧ dueZero.DriverSound) := by decide +kernel

theorem test_meets_invariants_stores :
    waiting.ConfinementSound ∧ waiting.StoreSound := by decide +kernel

theorem test_meets_invariants_lists :
    waiting.PendingListSound ∧ waiting.InFlightSound ∧ waiting.CompletionsSound ∧ waiting.NoEligibleLocal
      ∧ waiting.OrderSound := by decide +kernel

theorem test_meets_invariants_mailboxes :
    ∀ (p : Port) (i : MailboxIndex), (waiting.mailbox ⟨p, i⟩).Sound := by decide +kernel

theorem test_meets_invariants_step :
    ∃ t, step waiting = .next t ∧ t.line.activity = .awaitingReply := ⟨_, rfl, rfl⟩

end Sys2Proof.Tests
end

section
/-! The state after device reset: what each view of it gives (O60). -/

namespace Sys2Proof.Machine

@[simp] theorem State.reset_channel (c : ChannelNo) : State.reset.channel c = .free := by
  simp [State.channel, State.reset]

@[simp] theorem State.reset_entry (i : EntryNo) : State.reset.entry i = .free := by
  simp [State.entry, State.reset]

@[simp] theorem State.reset_engine (p : Port) : State.reset.engine p = .initial := by
  simp [State.engine, State.reset]

@[simp] theorem State.reset_queue (p : Port) : State.reset.queue p = .initial := by
  simp [State.queue, State.reset]

@[simp] theorem State.reset_mailbox (r : Ref) : State.reset.mailbox r = .vacant := by
  simp [State.mailbox, State.reset]

@[simp] theorem State.reset_completions (p : Port) : State.reset.completions p = [] := by
  simp [State.completions, State.reset]

theorem Entry.free_sound : Entry.free.Sound := by decide

theorem Queue.initial_sound : Queue.initial.Sound := by decide

theorem Mailbox.vacant_sound : Mailbox.vacant.Sound :=
  ⟨by decide, by decide, by decide, by decide, by decide, fun _ h => absurd h (by simp [Mailbox.vacant])⟩

@[simp] theorem State.reset_refsTo (i : SlotNo) : State.reset.refsTo i = 0 := by
  simp [State.refsTo, State.refsAt, Queue.initial]

theorem State.reset_slotsSound : State.reset.SlotsSound :=
  ⟨fun i => by rw [State.reset_refsTo]; simp [State.reset], fun i h => absurd h (by simp [State.reset])⟩

theorem State.reset_storeSound : State.reset.StoreSound :=
  ⟨State.reset_slotsSound, fun p => by rw [State.reset_queue]; exact Queue.initial_sound,
    fun p => by rw [State.reset_engine, State.reset_queue]; rfl⟩

theorem State.reset_bankSound : State.reset.BankSound :=
  ⟨⟨by decide, fun p i => by rw [State.reset_mailbox]; simp [State.reset, Mailbox.vacant, MailState.onPendingList]⟩,
    fun p i => by rw [State.reset_mailbox]; simp [State.reset, LineUnit.initial, Mailbox.vacant, MailState.onLine],
    fun p => by simp,
    fun p i => by rw [State.reset_mailbox]; exact Mailbox.vacant_sound⟩

theorem State.reset_votesEmpty : votesEmpty State.reset.member.votes = true := by
  simp [votesEmpty, State.reset, Membership.initial]

theorem State.reset_lineSound : State.reset.LineSound :=
  ⟨iff_of_true State.reset_votesEmpty (Or.inl rfl), by decide, by decide, by decide, by decide, by decide, by decide⟩

theorem State.reset_driverSound : State.reset.DriverSound := by decide

/-- Settles O60: every invariant read off the reset values. -/
theorem resetStateIsSound : Obligations.ResetStateIsSound :=
  ⟨fun c => by simp [Channel.free],
    by decide,
    fun i => by rw [State.reset_entry]; exact Entry.free_sound,
    fun p => by simp [Engine.initial],
    State.reset_lineSound, State.reset_driverSound, by decide,
    State.reset_storeSound, by decide, State.reset_bankSound,
    fun r h => absurd h (by simp [State.reset]), fun r h => absurd h (by simp [State.reset])⟩

end Sys2Proof.Machine
end

section
/-! What a frame says of the line unit and of the membership unit, and the line unit after the shared line events
(01_the_turn_line.md, 02_membership_and_line_configuration.md). -/

namespace Sys2Proof.Machine

/-! ## Reading a frame -/

/-- A frame that does not name the line unit leaves it as it is. -/
theorem State.OnlyChanges.line {s t : State} {l : List Part} (h : s.OnlyChanges t l) (hl : Part.line ∉ l) :
    t.line = s.line := h.2 .line hl

/-- A frame that names no part of the membership unit leaves it as it is. -/
theorem State.OnlyChanges.member {s t : State} {l : List Part} (h : s.OnlyChanges t l) (hv : Part.votes ∉ l)
    (hl : Part.lineState ∉ l) (hc : Part.config ∉ l) : t.member = s.member := by
  have e : ∀ a b : Membership, b.votes = a.votes → b.lineState = a.lineState → b.config = a.config → b = a := by
    rintro ⟨_, _, _⟩ ⟨_, _, _⟩ rfl rfl rfl
    rfl
  exact e _ _ (h.2 .votes hv) (h.2 .lineState hl) (h.2 .config hc)

/-- A frame that does not name the boxes leaves every mailbox as it is. -/
theorem State.OnlyChanges.mailbox {s t : State} {l : List Part} (h : s.OnlyChanges t l) (hb : Part.boxes ∉ l) (r : Ref) :
    t.mailbox r = s.mailbox r := by
  have e : t.mail.boxes = s.mail.boxes := h.2 .boxes hb
  simp only [State.mailbox, e]

/-- A frame that does not name the engines leaves every engine as it is. -/
theorem State.OnlyChanges.engine {s t : State} {l : List Part} (h : s.OnlyChanges t l) (hb : Part.engines ∉ l) (p : Port) :
    t.engine p = s.engine p := by
  have e : t.engines = s.engines := h.2 .engines hb
  simp only [State.engine, e]

/-- A frame that does not name the completion lists leaves each as it is. -/
theorem State.OnlyChanges.completions {s t : State} {l : List Part} (h : s.OnlyChanges t l)
    (hb : Part.completions ∉ l) (p : Port) : t.completions p = s.completions p := by
  have e : t.mail.completions = s.mail.completions := h.2 .completions hb
  simp only [State.completions, e]

/-- A frame that does not name the queues leaves each as it is. -/
theorem State.OnlyChanges.queue {s t : State} {l : List Part} (h : s.OnlyChanges t l) (hb : Part.queues ∉ l) (p : Port) :
    t.queue p = s.queue p := by
  have e : t.queues = s.queues := h.2 .queues hb
  simp only [State.queue, e]

/-- A frame that does not name the entries leaves every group match as it is. -/
theorem State.OnlyChanges.groupMatch {s t : State} {l : List Part} (h : s.OnlyChanges t l) (hb : Part.entries ∉ l)
    (p : Port) (g : GroupId) : t.groupMatch p g = s.groupMatch p g := by
  have e : t.entries = s.entries := h.2 .entries hb
  simp only [State.groupMatch, State.matchKind, State.entry, e]

variable (s : State)

/-! ## Turns -/

theorem State.roundBoundary_line : s.roundBoundary.line = s.line := s.roundBoundary_only.line (by decide)

theorem State.roundBoundary_member : s.roundBoundary.member = s.member :=
  s.roundBoundary_only.member (by decide) (by decide) (by decide)

theorem State.advanceTurn_member : s.advanceTurn.member = s.member :=
  s.advanceTurn_only.member (by decide) (by decide) (by decide)

/-- R13: the line unit as the frame `f` starts. -/
def LineUnit.sendFrame (l : LineUnit) (f : OwnFrame) : LineUnit :=
  { l with own := some f, activity := .transmitting, den := true, txd := f.chars }

/-- R82: the chosen mailbox's frame starts. -/
theorem State.handFrame_line (r : Ref) (rec : MailRecord) :
    ∃ f, (s.handFrame r rec).line = s.line.sendFrame f := by
  unfold State.handFrame
  simp only []
  split
  all_goals exact ⟨_, rfl⟩

/-- R78, R82: own turn begins sends nothing, or, where the node may transmit, starts a frame. -/
theorem State.ownTurnBegins_cases :
    s.ownTurnBegins = s
      ∨ s.mayTransmit = true ∧ ∃ f, s.ownTurnBegins.line = s.line.sendFrame f := by
  unfold State.ownTurnBegins
  split
  next hm =>
    split
    next r p _ =>
      split
      next rec _ => exact .inr ⟨hm, (s.putRotation p).handFrame_line r rec⟩
      next => exact .inl rfl
    next => exact .inl rfl
  next => exact .inl rfl

theorem State.ownTurnBegins_member : s.ownTurnBegins.member = s.member :=
  s.ownTurnBegins_only.member (by decide) (by decide) (by decide)

/-- R8: own turn begins moves neither the turn counter nor the round number. -/
theorem State.ownTurnBegins_turn :
    s.ownTurnBegins.line.turn = s.line.turn ∧ s.ownTurnBegins.line.round = s.line.round
      ∧ s.ownTurnBegins.line.firstTurnDue = s.line.firstTurnDue := by
  rcases s.ownTurnBegins_cases with h | ⟨_, f, h⟩
  · rw [h]; exact ⟨rfl, rfl, rfl⟩
  · rw [h]; exact ⟨rfl, rfl, rfl⟩

/-! ## Slips and frame start -/

/-- R9, R10: the line unit after a slip with the sender address `a`. -/
theorem State.slip_line (a : NodeAddr) :
    (s.slip a).line
      = { s.line with
          turnSlips := saturatingSucc s.line.turnSlips,
          turn := if s.tracking = true then a else s.line.turn,
          round := if s.tracking = true ∧ a < s.line.turn then s.line.round + 1 else s.line.round } := by
  unfold State.slip
  by_cases ht : s.tracking = true
  · by_cases ha : a < s.line.turn
    · simp [ht, ha, State.roundBoundary_line, State.advanceRound, State.spoil]
    · simp [ht, ha, State.spoil]
  · simp [ht, State.spoil]

theorem State.slip_member (a : NodeAddr) : (s.slip a).member = s.member :=
  (s.slip_only a).member (by decide) (by decide) (by decide)

theorem State.follow_only (ph : RxPhase) (chars : List RxChar) : s.OnlyChanges (s.follow ph chars) [.line] :=
  s.putLine_only _

theorem State.frameStart_only (chars : List RxChar) : s.OnlyChanges (s.frameStart chars) [.line, .store] := by
  unfold State.frameStart
  simp only []
  refine State.OnlyChanges.seq ?_ (State.putLine_only _ _) (by decide)
  split
  · exact s.takeReceptionSlot_only.mono (by decide)
  · exact (s.putLine_only _).mono (by decide)

/-- R17, R136: the line unit after frame start. -/
theorem State.frameStart_line (chars : List RxChar) :
    (s.frameStart chars).line
      = { s.line with
          holdFlag := s.member.lineState == .active && s.lowestFree.isSome,
          reception := some { phase := .frame, chars := chars,
                              activeAtStart := s.member.lineState == .active } } := by
  unfold State.frameStart
  by_cases h : s.member.lineState = .active
  · simp [h, s.takeReceptionSlot_eq]
  · simp [h]

/-- What header byte 0 may change. -/
theorem State.headerZero_only (pre h0 : RxChar) :
    s.OnlyChanges (s.headerZero pre h0)
      [.line, .boxes, .refs, .completions, .store, .queues, .engines, .fault] := by
  unfold State.headerZero
  simp only []
  split
  · exact (s.follow_only _ _).mono (by decide)
  · split
    · exact (s.slip_only _).seq (State.follow_only _ _ _) (by decide)
    · split
      · exact (s.slip_only _).seq (State.frameStart_only _ _) (by decide)
      · exact (s.frameStart_only _).mono (by decide)

theorem State.foreignUse_only (chars : List RxChar) :
    s.OnlyChanges (s.foreignUse chars)
      [.line, .boxes, .refs, .completions, .store, .queues, .engines, .fault] :=
  (s.slip_only _).seq (State.follow_only _ _ _) (by decide)

/-- R10: the line unit after a foreign use. -/
theorem State.foreignUse_line (chars : List RxChar) :
    (s.foreignUse chars).line
      = { (s.slip s.member.config.nodeAddress).line with
          reception := some { phase := .foreign, chars := chars,
                              activeAtStart := s.member.lineState == .active } } := by
  simp [State.foreignUse, State.follow, State.slip_member]

/-! ## Own frames that end -/

/-- R14, R15: the line unit as the own frame is over. -/
def LineUnit.frameOver (l : LineUnit) : LineUnit := { l with own := none, den := false, txd := [] }

/-- R14, R15: the own frame is over: the state of which the blocks take the transmission end. -/
def State.frameOver (s : State) : State := s.putLine s.line.frameOver

/-- A transmission end as mailbox bank, fault confinement unit and sequence unit take it (R39, R59, R97). -/
def State.endSettled (s : State) (f : OwnFrame) (raw : RawResult) : Upd :=
  ((s.frameOver.settle f.ref raw).on (fun s => s.appendHealth raw)).on (fun s => s.settleOutbound f raw)

/-- A transmission end with its echo (R132). -/
def State.endEchoed (s : State) (f : OwnFrame) (raw : RawResult) : Upd :=
  if raw == .sentClean then (s.endSettled f raw).echo f else s.endSettled f raw

/-- R14, R15, R29: a transmission end is the settling with its echo, then the membership unit, then the local pass. -/
theorem State.transmissionEnd_eq (f : OwnFrame) (raw : RawResult) :
    s.transmissionEnd f raw = ((s.endEchoed f raw).andThen State.leaveAtEnd).finish := rfl

/-- What mailbox bank, fault confinement unit and sequence unit write at a transmission end. -/
abbrev settledParts : List Part := [.boxes, .refs, .completions, .engines, .fault, .seq]

theorem State.endSettled_only (f : OwnFrame) (raw : RawResult) :
    s.frameOver.OnlyChanges (s.endSettled f raw).state settledParts :=
  Upd.on_only (Upd.on_only ((State.settle_only _ f.ref raw).mono (by decide))
    (fun t => (t.appendHealth_only raw).mono (by decide))) (fun t => (t.settleOutbound_only f raw).mono (by decide))

/-- What the echo writes, and the local pass that may come before it. -/
abbrev echoParts : List Part := [.boxes, .refs, .completions, .store, .queues, .engines, .draws]

theorem Upd.echo_only_parts (u : Upd) (f : OwnFrame) : u.state.OnlyChanges (u.echo f).state echoParts := by
  unfold Upd.echo
  split
  · exact .refl _ _
  · simp only []
    split
    · exact (((u.state.localPass_only _).mono (by decide)).seq (State.drawn_only _) (by decide)).seq
        (State.echo_only _ _ _ _) (by decide)
    · exact ((u.state.drawn_only).mono (by decide)).seq (State.echo_only _ _ _ _) (by decide)

/-- What a transmission end writes before the membership unit takes it. -/
abbrev echoedParts : List Part :=
  [.boxes, .refs, .completions, .engines, .fault, .seq, .store, .queues, .draws]

theorem State.endEchoed_only (f : OwnFrame) (raw : RawResult) :
    s.frameOver.OnlyChanges (s.endEchoed f raw).state echoedParts := by
  unfold State.endEchoed
  split
  · exact ((s.endSettled_only f raw).mono (by decide)).seq (Upd.echo_only_parts _ f) (by decide)
  · exact (s.endSettled_only f raw).mono (by decide)

theorem State.endEchoed_line (f : OwnFrame) (raw : RawResult) :
    (s.endEchoed f raw).state.line = s.line.frameOver := (s.endEchoed_only f raw).line (by decide)

theorem State.endEchoed_member (f : OwnFrame) (raw : RawResult) :
    (s.endEchoed f raw).state.member = s.member :=
  (s.endEchoed_only f raw).member (by decide) (by decide) (by decide)

/-! ## Moves of the line state -/

/-- R11, R30: the line unit at entry to OFFLINE. -/
def LineUnit.atOffline (l : LineUnit) : LineUnit :=
  { l with holdFlag := false, activity := .idle, reception := none, reply := none, den := false, txd := [],
           betweenTurns := false, busyUntilIdle := false, firstTurnDue := false }

theorem State.lineOffline_line : s.lineOffline.state.line = s.line.atOffline := by
  simp [State.lineOffline, LineUnit.atOffline]

theorem State.enterOffline_line : s.enterOffline.state.line = s.line.atOffline := by
  have h := s.lineOffline.state.withdrawAll_only.line (by decide)
  exact Eq.trans h s.lineOffline_line

theorem State.enterOffline_member : s.enterOffline.state.member = s.member := by
  have h : s.OnlyChanges s.enterOffline.state [.line, .store, .boxes, .refs, .completions, .engines, .fault] :=
    Upd.on_only
      (Upd.andThen_only (s.lineOffline_only.mono (by decide)) (fun t => t.withdrawAll_only.mono (by decide)))
      (fun t => (t.putFault_only _).mono (by decide))
  exact h.member (by decide) (by decide) (by decide)

/-- R25 to R30: the line state after a move is the one moved to. -/
theorem State.moveLineState_member (l : LineState) :
    (s.moveLineState l).state.member = { s.member with lineState := l } := by
  unfold State.moveLineState
  split
  next h => rw [beq_iff_eq] at h; subst h; rfl
  next =>
    cases l with
    | offline => exact (s.putLineState .offline).enterOffline_member
    | syncing => rfl
    | active => rfl
    | leaving => exact (State.abandonReception_only _).member (by decide) (by decide) (by decide)

/-- R23, R24: the membership unit after new votes. -/
theorem State.applyVotes_member (v : Vector Vote 3) :
    (s.applyVotes v).state.member
      = { s.member with
          votes := v, lineState := nextLineState s.member.lineState (votesEmpty v) s.inFlight } := by
  have h := (State.announceLine_only
    ((s.putVotes v).moveLineState (nextLineState s.member.lineState (votesEmpty v) s.inFlight)).state s).member
    (by decide) (by decide) (by decide)
  exact Eq.trans h ((s.putVotes v).moveLineState_member _)

/-- R23: new votes reach the line unit through the move of the line state. -/
theorem State.applyVotes_line (v : Vector Vote 3) :
    (s.applyVotes v).state.line
      = ((s.putVotes v).moveLineState
          (nextLineState s.member.lineState (votesEmpty v) s.inFlight)).state.line :=
  (State.announceLine_only _ s).line (by decide)

/-- R29: outside LEAVING a transmission end does not move the line state. -/
theorem State.leaveAtEnd_stay (h : s.member.lineState ≠ .leaving) : s.leaveAtEnd = .start s := by
  simp [State.leaveAtEnd, h]

theorem State.leaveAtEnd_line (h : s.member.lineState = .leaving) : s.leaveAtEnd.state.line = s.line.atOffline := by
  have e : (s.moveLineState .offline).state.line = s.line.atOffline := by
    simp only [State.moveLineState, h]
    exact (s.putLineState .offline).enterOffline_line
  simp only [State.leaveAtEnd, h, beq_self_eq_true, if_true]
  exact Eq.trans ((State.announceLine_only _ s).line (by decide)) e

theorem State.leaveAtEnd_member (h : s.member.lineState = .leaving) :
    s.leaveAtEnd.state.member = { s.member with lineState := .offline } := by
  simp only [State.leaveAtEnd, h, beq_self_eq_true, if_true]
  exact Eq.trans ((State.announceLine_only _ s).member (by decide) (by decide) (by decide))
    (s.moveLineState_member .offline)

/-- R15: the end of an own frame outside LEAVING leaves the line unit otherwise as it is, and the line state. -/
theorem State.transmissionEnd_stay (f : OwnFrame) (raw : RawResult) (h : s.member.lineState ≠ .leaving) :
    s.transmissionEnd f raw = (s.endEchoed f raw).finish := by
  have e : (s.endEchoed f raw).state.leaveAtEnd = .start (s.endEchoed f raw).state :=
    State.leaveAtEnd_stay _ (by rwa [s.endEchoed_member f raw])
  rw [State.transmissionEnd_eq]
  simp [Upd.andThen, e]

theorem State.transmissionEnd_line_stay (f : OwnFrame) (raw : RawResult) (h : s.member.lineState ≠ .leaving) :
    (s.transmissionEnd f raw).line = s.line.frameOver ∧ (s.transmissionEnd f raw).member = s.member := by
  rw [s.transmissionEnd_stay f raw h]
  have hf := (s.endEchoed f raw).finish_only
  exact ⟨(hf.line (by decide)).trans (s.endEchoed_line f raw),
    (hf.member (by decide) (by decide) (by decide)).trans (s.endEchoed_member f raw)⟩

/-- R29, R30: the end of an own frame in LEAVING takes the node OFFLINE. -/
theorem State.transmissionEnd_line_leave (f : OwnFrame) (raw : RawResult) (h : s.member.lineState = .leaving) :
    (s.transmissionEnd f raw).line = s.line.frameOver.atOffline
      ∧ (s.transmissionEnd f raw).member = { s.member with lineState := .offline } := by
  have hm := s.endEchoed_member f raw
  have hl : (s.endEchoed f raw).state.member.lineState = .leaving := by rw [hm, h]
  have hf := ((s.endEchoed f raw).andThen State.leaveAtEnd).finish_only
  rw [State.transmissionEnd_eq]
  constructor
  · refine (hf.line (by decide)).trans ?_
    rw [Upd.andThen_parts _ _ |>.1, State.leaveAtEnd_line _ hl, s.endEchoed_line f raw]
  · refine (hf.member (by decide) (by decide) (by decide)).trans ?_
    rw [Upd.andThen_parts _ _ |>.1, State.leaveAtEnd_member _ hl, hm]

end Sys2Proof.Machine
end

section
/-! The parts of a reception end (R18): what is counted and synced, what is decided, and the line unit after it. -/

namespace Sys2Proof.Machine

variable (s : State)

/-- R12, R20, R44: the counters, the marker, the slot's bytes and sync, as a reception end has them before it is decided. -/
def State.receptionCounted (s : State) (v : Classified) : State :=
  ((s.countReception v.cls).keepPayload v.payload).syncByFrame v

/-- R115, R128: a reception end with its reply decision or group delivery. -/
def State.receptionDecided (s : State) (rx : Reception) (v : Classified) : Upd :=
  if rx.activeAtStart && v.frameStart && v.cls == .good then (s.receptionCounted v).decideReception v
  else .start (s.receptionCounted v)

/-- R18: a reception end is the decision, then the end of the reception slot and of the line time, then the pass. -/
theorem State.receptionEnd_eq (rx : Reception) (v : Classified) :
    s.receptionEnd rx v
      = (((s.receptionDecided rx v).andThen State.endReceptionSlot).on (fun s => s.afterReceptionEnd v rx)).finish :=
  rfl

/-! ## Counting -/

theorem State.countReception_only (c : RxClass) : s.OnlyChanges (s.countReception c) [.line, .fault] := by
  cases c with
  | good => exact .refl s _
  | checkError => exact ((s.putLine_only _).mono (by decide)).seq (State.spoil_only _) (by decide)
  | formatError => exact s.spoil_only.mono (by decide)

/-- R20: the CHECK_ERROR counter after a reception end. -/
def countedErrors (c : RxClass) (n : BitVec 16) : BitVec 16 := if c = .checkError then saturatingSucc n else n

theorem State.countReception_line (c : RxClass) :
    (s.countReception c).line = { s.line with checkErrors := countedErrors c s.line.checkErrors } := by
  cases c <;> rfl

/-- R44: a reception end that is not GOOD spoils the round. -/
theorem State.countReception_fault (c : RxClass) :
    (s.countReception c).fault = if c = .good then s.fault else { s.fault with spoiled := true } := by
  cases c <;> rfl

theorem State.syncByFrame_only (v : Classified) :
    s.OnlyChanges (s.syncByFrame v) [.line, .lineState, .engines, .fault] := by
  unfold State.syncByFrame
  split
  · exact ((s.putLine_only _).mono (by decide)).seq (State.syncEstablished_only _) (by decide)
  · exact .refl s _

/-- R12: when a reception end establishes sync. -/
def State.syncsBy (s : State) (v : Classified) : Bool :=
  s.member.lineState == .syncing && v.cls == .good && v.sender != s.member.config.nodeAddress

/-- R12, R27: sync established takes the line state to ACTIVE. -/
theorem State.syncEstablished_member : s.syncEstablished.member = { s.member with lineState := .active } :=
  (State.announceLine_only (s.putLineState .active) s).member (by decide) (by decide) (by decide)

/-- R44: the round in which sync is established is spoiled. -/
theorem State.syncEstablished_fault : s.syncEstablished.fault = { s.fault with spoiled := true } := by
  have h : (State.announceLine s (s.putLineState .active)).fault = s.fault :=
    (State.announceLine_only (s.putLineState .active) s).2 .fault (by decide)
  simp only [State.syncEstablished, State.spoil, State.putFault_fault, h]

/-- R31: sync established in SYNCING sets LINE at all ports. -/
theorem State.syncEstablished_engine (h : s.member.lineState = .syncing) (q : Port) :
    s.syncEstablished.engine q = { s.engine q with flags := { (s.engine q).flags with line := true } } := by
  simp [State.syncEstablished, State.spoil, State.announceLine, h]

theorem State.syncByFrame_eq (v : Classified) :
    s.syncByFrame v
      = if s.syncsBy v = true then (s.putLine { s.line with turn := v.sender }).syncEstablished else s := rfl

theorem State.receptionCounted_only (v : Classified) :
    s.OnlyChanges (s.receptionCounted v) [.line, .lineState, .engines, .fault, .store] :=
  (((s.countReception_only _).mono (by decide)).seq (State.keepPayload_only _ _) (by decide)).seq
    (State.syncByFrame_only _ v) (by decide)

/-- The state that a reception end hands to the sync search. -/
theorem State.keepPayload_countReception_member (v : Classified) :
    ((s.countReception v.cls).keepPayload v.payload).member = s.member :=
  (((s.countReception_only _).mono (m := [.line, .fault, .store]) (by decide)).seq
    (State.keepPayload_only _ v.payload) (by decide)).member (by decide) (by decide) (by decide)

theorem State.keepPayload_countReception_line (v : Classified) :
    ((s.countReception v.cls).keepPayload v.payload).line
      = { s.line with checkErrors := countedErrors v.cls s.line.checkErrors } :=
  ((State.keepPayload_only _ v.payload).line (by decide)).trans (s.countReception_line v.cls)

theorem State.syncsBy_counted (v : Classified) :
    ((s.countReception v.cls).keepPayload v.payload).syncsBy v = s.syncsBy v := by
  simp only [State.syncsBy, s.keepPayload_countReception_member v]

/-- R12, R20: the line unit before the decision. -/
theorem State.receptionCounted_line (v : Classified) :
    (s.receptionCounted v).line
      = { s.line with checkErrors := countedErrors v.cls s.line.checkErrors,
                      turn := if s.syncsBy v = true then v.sender else s.line.turn } := by
  rw [State.receptionCounted, State.syncByFrame_eq, s.syncsBy_counted v]
  split
  · rw [(State.syncEstablished_keeps _).1, State.putLine_line, s.keepPayload_countReception_line v]
  · exact s.keepPayload_countReception_line v

/-- R12: the membership unit after a reception end. -/
theorem State.receptionCounted_member (v : Classified) :
    (s.receptionCounted v).member
      = { s.member with lineState := if s.syncsBy v = true then .active else s.member.lineState } := by
  rw [State.receptionCounted, State.syncByFrame_eq, s.syncsBy_counted v]
  split
  · rw [State.syncEstablished_member, (State.putLine_fields _ _).1, s.keepPayload_countReception_member v]
  · exact s.keepPayload_countReception_member v

/-! ## Deciding -/

theorem State.putReply_only (c : Option ReplyCode) : s.OnlyChanges (s.putReply c) [.line] := s.putLine_only _

theorem State.decideReception_only (v : Classified) :
    s.OnlyChanges (s.decideReception v).state [.line, .seq, .store, .queues, .engines] := by
  unfold State.decideReception
  split
  · split
    · exact ((s.replyDecision_only _ _ _ _ _).mono (by decide)).seq (State.putReply_only _ _) (by decide)
    · exact .refl s _
  · exact (s.deliverGroup_only _ _ _).mono (by decide)

/-- R16, R118: of the line unit, a decision writes the reply code at the most. -/
theorem State.decideReception_line (v : Classified) :
    ∃ c, (s.decideReception v).state.line = { s.line with reply := c } := by
  unfold State.decideReception
  split
  · split
    next dest c bit fresh _ _ =>
      have h := (s.replyDecision_only v.sender c bit fresh v.payload.length).line (by decide)
      exact ⟨_, by simp only [State.putReply, Upd.start_state, State.putLine_line, h]; rfl⟩
    next => exact ⟨_, rfl⟩
  · exact ⟨_, (s.deliverGroup_only _ _ _).line (by decide)⟩

/-- R115: a GOOD ADDRESSED frame to another node is not decided on. -/
theorem State.decideReception_other (v : Classified) {d c b fr} (hv : v.body = .addressed d c b fr)
    (hd : d ≠ s.member.config.nodeAddress) : s.decideReception v = .start s := by
  simp [State.decideReception, hv, hd]

theorem State.receptionDecided_only (rx : Reception) (v : Classified) :
    (s.receptionCounted v).OnlyChanges (s.receptionDecided rx v).state [.line, .seq, .store, .queues, .engines] := by
  unfold State.receptionDecided
  split
  · exact State.decideReception_only _ v
  · exact .refl _ _

theorem State.receptionDecided_line (rx : Reception) (v : Classified) :
    ∃ c, (s.receptionDecided rx v).state.line = { (s.receptionCounted v).line with reply := c } := by
  unfold State.receptionDecided
  split
  · exact State.decideReception_line _ v
  · exact ⟨_, rfl⟩

/-! ## The line unit after a reception end -/

theorem State.endLineTime_only : s.OnlyChanges s.endLineTime [.line] := s.putLine_only _

theorem State.afterReceptionEnd_only (v : Classified) (rx : Reception) :
    s.OnlyChanges (s.afterReceptionEnd v rx) [.line] := by
  unfold State.afterReceptionEnd
  split
  · exact s.endLineTime_only
  · exact s.putLine_only _

/-- R4, log 14: the line unit as a reception end leaves it: a GROUP frame's line time is over at its last check byte. -/
def LineUnit.receptionOver (l : LineUnit) (v : Classified) (rx : Reception) (tracking : Bool) : LineUnit :=
  if v.atCheckByte && groupBit v.h0 then
    { l with holdFlag := false, activity := .idle, reception := none, betweenTurns := tracking }
  else { l with holdFlag := false, reception := some { rx with phase := .ended } }

theorem State.afterReceptionEnd_line (v : Classified) (rx : Reception) (h : s.line.holdFlag = false) :
    (s.afterReceptionEnd v rx).line = s.line.receptionOver v rx s.tracking := by
  unfold State.afterReceptionEnd LineUnit.receptionOver
  split <;> simp [State.endLineTime, ← h]

theorem State.endReceptionSlot_member : s.endReceptionSlot.state.member = s.member :=
  s.endReceptionSlot_only.member (by decide) (by decide) (by decide)

/-- R18: the state of a reception end before the pass. -/
theorem State.receptionEnd_line (rx : Reception) (v : Classified) :
    ∃ c b, (s.receptionEnd rx v).line = ({ (s.receptionCounted v).line with reply := c }).receptionOver v rx b := by
  obtain ⟨c, hc⟩ := s.receptionDecided_line rx v
  have hs := (State.endReceptionSlot_eq (s.receptionDecided rx v).state).1
  refine ⟨c, (s.receptionDecided rx v).state.endReceptionSlot.state.tracking, ?_⟩
  rw [State.receptionEnd_eq, (Upd.finish_only _).line (by decide), (Upd.on_parts _ _).1, (Upd.andThen_parts _ _).1,
    State.afterReceptionEnd_line _ v rx (by rw [hs]), hs, hc]
  unfold LineUnit.receptionOver
  split <;> rfl

theorem State.receptionEnd_member (rx : Reception) (v : Classified) :
    (s.receptionEnd rx v).member = (s.receptionCounted v).member := by
  rw [State.receptionEnd_eq, (Upd.finish_only _).member (by decide) (by decide) (by decide), (Upd.on_parts _ _).1,
    (State.afterReceptionEnd_only _ v rx).member (by decide) (by decide) (by decide), (Upd.andThen_parts _ _).1,
    State.endReceptionSlot_member]
  exact (s.receptionDecided_only rx v).member (by decide) (by decide) (by decide)

end Sys2Proof.Machine
end

section
/-! What the body of each command may change, and the state that a release hands to it. -/

namespace Sys2Proof.Machine

variable (s : State)

/-! ## Bodies -/

theorem State.configure_only (c : LineConfig) : s.OnlyChanges (s.configure c) [.config, .seq] := by
  have h : s.OnlyChanges { s with member := { s.member with config := c } } [.config, .seq] :=
    ⟨rfl, fun k hk => by
      cases k
      case config => exact absurd (by decide) hk
      all_goals rfl⟩
  unfold State.configure
  simp only []
  split
  · exact h
  · exact h.seq (State.putSeq_only _ _) (by decide)

theorem configureBody_only (bytes : List Byte) : s.OnlyChanges (configureBody bytes s).1 [.config, .seq] := by
  unfold configureBody
  split
  · split
    · exact .refl s _
    · split
      · exact s.configure_only _
      · exact .refl s _
  · exact .refl s _

theorem resumeBody_only (bytes : List Byte) : s.OnlyChanges (resumeBody bytes s).1 [.fault, .engines] := by
  unfold resumeBody
  split
  · split
    · exact s.confine_only _
    all_goals exact .refl s _
  · exact .refl s _

theorem State.load_only (r : Ref) (rec : MailRecord) : s.OnlyChanges (s.load r rec) [.boxes, .completions] :=
  ((s.putMailbox_only r _).mono (by decide)).seq (State.dropCompletion_only _ r) (by decide)

theorem loadBody_only (p : Port) (bytes : List Byte) : s.OnlyChanges (loadBody p bytes s).1 [.boxes, .completions] := by
  unfold loadBody
  split
  · split
    · exact .refl s _
    · split
      · exact .refl s _
      · simp only []
        split
        · exact .refl s _
        · split
          · exact s.load_only _ _
          · exact .refl s _
  · exact .refl s _

theorem State.enqueue_only (r : Ref) (rec : MailRecord) :
    s.OnlyChanges (s.enqueue r rec) [.boxes, .completions, .refs] :=
  (((s.putMailbox_only r _).mono (by decide)).seq (State.dropCompletion_only _ r) (by decide)).seq
    (State.putRefs_only _ _) (by decide)

theorem State.requestMailbox_only (r : Ref) (rec : MailRecord) :
    s.OnlyChanges (s.requestMailbox r rec) passParts := by
  unfold State.requestMailbox
  split
  · exact ((s.enqueue_only r rec).mono (by decide)).trans (State.localPass_only _ false)
  · exact (s.enqueue_only r rec).mono (by decide)

theorem requestChecks_only (r : Ref) : s.OnlyChanges (requestChecks r s).1 passParts := by
  have h : ∀ rec : MailRecord, s.OnlyChanges
      (if rec.kind != .localHandOff && s.member.lineState == .offline then (s, Result.offline)
        else if rec.kind == .remote && rec.dest == s.member.config.nodeAddress then (s, .badArgument)
        else (s.requestMailbox r rec, .ok)).1 passParts := by
    intro rec
    split
    · exact .refl s _
    · split
      · exact .refl s _
      · exact s.requestMailbox_only r rec
  unfold requestChecks
  split
  · exact h _
  · exact h _
  · exact .refl s _

theorem requestBody_only (p : Port) (bytes : List Byte) : s.OnlyChanges (requestBody p bytes s).1 passParts := by
  unfold requestBody
  split
  · split
    · exact requestChecks_only s _
    · exact .refl s _
  · exact .refl s _

theorem State.completeUpd_finish_only (r : Ref) (o : MailOutcome) (c : Option ExpiryCause) :
    s.OnlyChanges (s.completeUpd r o c).finish passParts :=
  ((s.complete_only r o c).mono (by decide)).trans (Upd.finish_only (s.completeUpd r o c))

theorem abortChecks_only (r : Ref) : s.OnlyChanges (abortChecks r s).1 passParts := by
  unfold abortChecks
  split
  case h_4 => exact (s.putMailbox_only r _).mono (by decide)
  case h_1 | h_2 | h_3 => exact s.completeUpd_finish_only r _ _
  all_goals exact .refl s _

theorem abortBody_only (p : Port) (bytes : List Byte) : s.OnlyChanges (abortBody p bytes s).1 passParts := by
  unfold abortBody
  split
  · split
    · exact abortChecks_only s _
    · exact .refl s _
  · exact .refl s _

theorem clearChecks_only (r : Ref) : s.OnlyChanges (clearChecks r s).1 [.boxes, .completions] := by
  have h : s.OnlyChanges ((s.putMailbox r .vacant).dropCompletion r) [.boxes, .completions] :=
    ((s.putMailbox_only r _).mono (by decide)).seq (State.dropCompletion_only _ r) (by decide)
  unfold clearChecks
  split
  case h_1 | h_2 => exact h
  all_goals exact .refl s _

theorem clearBody_only (p : Port) (bytes : List Byte) : s.OnlyChanges (clearBody p bytes s).1 [.boxes, .completions] := by
  unfold clearBody
  split
  · split
    · exact clearChecks_only s _
    · exact .refl s _
  · exact .refl s _

theorem claimBody_only (p : Port) (bytes : List Byte) : s.OnlyChanges (claimBody p bytes s).1 [.channels] := by
  unfold claimBody
  split
  · split
    · unfold claimChecks
      split
      · split
        all_goals exact .refl s _
      · exact s.putChannel_only _ _
    · exact .refl s _
  · exact .refl s _

theorem ownerCommand_only (p : Port) (bytes : List Byte) (act : ChannelNo → State → State) (l : List Part)
    (h : ∀ c, s.OnlyChanges (act c s) l) : s.OnlyChanges (ownerCommand p bytes act s).1 l := by
  unfold ownerCommand
  split
  · split
    · split
      · exact h _
      · exact .refl s _
    · exact .refl s _
  · exact .refl s _

theorem State.releaseChannel_only (c : ChannelNo) : s.OnlyChanges (State.releaseChannel c s) [.channels, .seq] :=
  ((s.putChannel_only c _).mono (by decide)).seq (State.putSeq_only _ _) (by decide)

theorem State.setChannelState_only (st : ChannelState) (c : ChannelNo) :
    s.OnlyChanges (State.setChannelState st c s) [.channels] := s.putChannel_only c _

theorem setEntryBody_only (p : Port) (bytes : List Byte) : s.OnlyChanges (setEntryBody p bytes s).1 [.entries] := by
  unfold setEntryBody
  split
  · split
    · unfold setEntryChecks
      split
      · split
        · exact s.putEntry_only _ _
        · exact .refl s _
      · exact s.putEntry_only _ _
    · exact .refl s _
  · exact .refl s _

theorem freeEntryBody_only (p : Port) (bytes : List Byte) : s.OnlyChanges (freeEntryBody p bytes s).1 [.entries] := by
  unfold freeEntryBody
  split
  · split
    · split
      · exact s.putEntry_only _ _
      · exact .refl s _
    · exact .refl s _
  · exact .refl s _

theorem setQueueBody_only (p : Port) (bytes : List Byte) : s.OnlyChanges (setQueueBody p bytes s).1 passParts := by
  unfold setQueueBody
  split
  · split
    · split
      · exact .refl s _
      · split
        · exact .refl s _
        · simp only []
          split
          · exact ((s.putQueue_only p _).mono (by decide)).trans (State.localPass_only _ true)
          · exact (s.putQueue_only p _).mono (by decide)
    · exact .refl s _
  · exact .refl s _

theorem State.removeHead_finish_only (p : Port) : s.OnlyChanges (s.removeHead p).finish passParts :=
  ((s.removeHead_only p).mono (by decide)).trans (Upd.finish_only _)

theorem releaseBody_only (p : Port) (bytes : List Byte) : s.OnlyChanges (releaseBody p bytes s).1 passParts := by
  unfold releaseBody
  split
  · split
    · exact .refl s _
    · exact s.removeHead_finish_only p
  · exact .refl s _

theorem setPortBody_only (p : Port) (bytes : List Byte) : s.OnlyChanges (setPortBody p bytes s).1 [.engines, .orders] := by
  unfold setPortBody
  split
  · split
    · split
      · exact ((s.putEngine_only p _).mono (by decide)).seq (State.putOrder_only _ p _) (by decide)
      · exact .refl s _
    · exact .refl s _
  · exact .refl s _

theorem acknowledgeBody_only (p : Port) (bytes : List Byte) : s.OnlyChanges (acknowledgeBody p bytes s).1 [.engines] := by
  unfold acknowledgeBody
  split
  · split
    · exact s.onFlags_only p _
    · exact .refl s _
  · exact .refl s _

theorem nopBody_state (bytes : List Byte) : (nopBody bytes s).1 = s := by
  unfold nopBody
  split <;> rfl

/-! ## Effects of read commands -/

theorem dropReported_only (p : Port) (e : SideEffect) : s.OnlyChanges (dropReported p e s) [.completions] := by
  cases e with
  | dropCompletion i => exact s.dropCompletion_only _
  | none => exact .refl s _
  | reduce _ _ => exact .refl s _

theorem pinHead_only (p : Port) (e : SideEffect) : s.OnlyChanges (pinHead p e s) [.queues] := by
  unfold pinHead
  split
  · exact .refl s _
  · exact s.putQueue_only p _

theorem takeHead_only (p : Port) (e : SideEffect) : s.OnlyChanges (takeHead p e s) passParts :=
  s.removeHead_finish_only p

/-! ## Transactions -/

theorem State.setCs_only (p : Port) (b : Bool) : s.OnlyChanges (s.setCs p b) [.engines] := s.putEngine_only p _

theorem State.beginTransaction_only (p : Port) : s.OnlyChanges (s.beginTransaction p) [.engines] := by
  unfold State.beginTransaction
  simp only []
  split
  · exact .refl s _
  · split
    · exact s.setCs_only p true
    · exact s.putEngine_only p _

theorem State.takeSnapshot_only (p : Port) (t : Transaction) (cmd : ReadCommand) (arg : Byte) :
    s.OnlyChanges (s.takeSnapshot p t cmd arg) [.engines, .queues] := by
  unfold State.takeSnapshot
  simp only []
  split
  · exact ((s.putEngine_only p _).mono (by decide)).seq (State.setTxnPin_only _ p true) (by decide)
  · exact (s.putEngine_only p _).mono (by decide)

/-! ## What a release keeps -/

/-- A property that survives changes at the ports alone holds after a release if the action keeps it. -/
theorem State.atRelease_keeps {P : State → Prop} (hP : ∀ u v : State, u.OnlyChanges v [.engines, .queues] → P u → P v)
    (p : Port) (fits : Transaction → Bool) (act : Option Snapshot → State → State)
    (ha : ∀ n u, P u → P (act n u)) {s : State} (hs : P s) : P (s.atRelease p fits act) := by
  unfold State.atRelease
  split
  · exact hP _ _ ((s.setCs_only p false).mono (by decide)) hs
  · split
    · exact ha _ _ (hP _ _ (s.closeTransaction_only p) hs)
    · exact hs

/-- What the body of a command keeps, its release keeps. -/
theorem State.takeCode_keeps {P : State → Prop} (hP : ∀ u v : State, u.OnlyChanges v [.engines, .queues] → P u → P v)
    (p : Port) (code : Byte) (body : State → State × Result) (hb : ∀ u, P u → P (body u).1) {s : State} (hs : P s) :
    P (s.takeCode p code body) :=
  State.atRelease_keeps hP p _ _
    (fun _ u hu => hP _ _ ((State.report_only _ p _).mono (by decide)) (hb u hu)) hs

/-- What the effect of a read command keeps, its release keeps. -/
theorem State.takeRead_keeps {P : State → Prop} (hP : ∀ u v : State, u.OnlyChanges v [.engines, .queues] → P u → P v)
    (p : Port) (cmd : ReadCommand) (k : Nat) (effect : SideEffect → State → State)
    (he : ∀ e u, P u → P (effect e u)) {s : State} (hs : P s) : P (s.takeRead p cmd k effect) := by
  refine State.atRelease_keeps hP p _ _ (fun n u hu => hP _ _ ((State.report_only _ p _).mono (by decide)) ?_) hs
  unfold applyEffect
  split
  · split
    · exact he _ _ hu
    · exact hu
  · exact hu

end Sys2Proof.Machine
end

section
/-! O56: votes, line state, line activity state, own frame and driver agree after every step. The two invariants speak of
the line unit, the votes and the line state alone, so a row that leaves these leaves them; the rows of the line, the votes
and the resets are taken one by one. -/

namespace Sys2Proof.Machine

/-- R19, R25, R29, R30: line unit, votes and line state agree (LineSound and DriverSound together). -/
def State.LineSafe (s : State) : Prop := s.LineSound ∧ s.DriverSound

/-- The fields of the line unit of which the invariant speaks are the same. -/
def LineUnit.SameDrive (l m : LineUnit) : Prop :=
  m.activity = l.activity ∧ m.own = l.own ∧ m.firstTurnDue = l.firstTurnDue ∧ m.turn = l.turn ∧ m.den = l.den
    ∧ m.txd = l.txd

theorem State.LineSafe.of_sameDrive {s t : State} (h : s.LineSafe) (hl : s.line.SameDrive t.line)
    (hv : t.member.votes = s.member.votes) (hm : t.member.lineState = s.member.lineState) : t.LineSafe := by
  obtain ⟨ha, ho, hf, ht, hd, hx⟩ := hl
  unfold State.LineSafe State.LineSound State.DriverSound State.inFlight at *
  rw [ha, ho, hf, ht, hd, hx, hv, hm]
  exact h

/-- A row that leaves line unit, votes and line state keeps the invariant. -/
theorem State.LineSafe.frame {s t : State} {l : List Part} (h : s.LineSafe) (hf : s.OnlyChanges t l)
    (hl : Part.line ∉ l) (hv : Part.votes ∉ l) (hm : Part.lineState ∉ l) : t.LineSafe :=
  h.of_sameDrive (by rw [hf.line hl]; exact ⟨rfl, rfl, rfl, rfl, rfl, rfl⟩) (hf.2 .votes hv) (hf.2 .lineState hm)

/-- The votes and the line state agree, and no own frame holds the node in LEAVING. -/
def State.VotesAgree (s : State) : Prop :=
  (votesEmpty s.member.votes = true ↔ s.member.lineState = .offline) ∧ s.member.lineState ≠ .leaving

theorem State.VotesAgree.congr {s t : State} (h : s.VotesAgree) (hm : t.member = s.member) : t.VotesAgree := by
  unfold State.VotesAgree
  rw [hm]
  exact h

/-- Without an own frame, votes and line state agree. -/
theorem State.LineSafe.votesAgree {s : State} (h : s.LineSafe) (ho : s.line.own = none) : s.VotesAgree := by
  obtain ⟨⟨hv, hl, -⟩, -⟩ := h
  have hnl : s.member.lineState ≠ .leaving := fun e => by
    have := hl e
    simp [State.inFlight, ho] at this
  exact ⟨by rw [hv]; simp [hnl], hnl⟩

/-- The N3 is not driving the line: no own frame, DEN low, TXD idle. -/
def LineUnit.Quiet (l : LineUnit) : Prop :=
  l.own = none ∧ l.den = false ∧ l.txd = [] ∧ (l.activity = .idle ∨ l.activity = .receiving)

/-- A line unit that drives nothing is sound with votes that agree. -/
theorem State.LineSafe.of_quiet {s : State} (hq : s.line.Quiet) (hv : s.VotesAgree)
    (hi : s.member.lineState = .offline → s.line.activity = .idle)
    (hf : s.line.firstTurnDue = true → s.member.lineState = .active ∧ s.line.activity = .idle ∧ s.line.turn = 31) :
    s.LineSafe := by
  obtain ⟨ho, hd, hx, ha⟩ := hq
  obtain ⟨hv, hl⟩ := hv
  refine ⟨⟨by rw [hv]; simp [hl], fun h => absurd h hl, ?_, ?_, ?_, hi, hf⟩, ?_, fun _ => hx⟩
  · simp [State.inFlight, ho]
  · rcases ha with ha | ha <;> simp [ha]
  · simp [State.inFlight, ho]
  · rcases ha with ha | ha <;> simp [hd, ha]

/-- While IDLE or RECEIVING the N3 drives nothing. -/
theorem State.LineSafe.quiet {s : State} (h : s.LineSafe) (ha : s.line.activity = .idle ∨ s.line.activity = .receiving) :
    s.line.Quiet := by
  obtain ⟨⟨-, -, hs, -⟩, hd, hx⟩ := h
  have ho : s.line.own = none := by
    by_contra hn
    have := hs (by simpa [State.inFlight, Option.isSome_iff_ne_none] using hn)
    rcases ha with ha | ha <;> simp [Activity.sendsOwn, ha] at this
  have hd' : s.line.den = false := by
    rw [← Bool.not_eq_true, hd]
    rcases ha with ha | ha <;> simp [ha]
  exact ⟨ho, hd', hx hd', ha⟩

/-- A first turn is due on an idle line only. -/
theorem State.LineSafe.not_due {s : State} (h : s.LineSafe) (ha : s.line.activity ≠ .idle) :
    s.line.firstTurnDue = false := by
  obtain ⟨⟨-, -, -, -, -, -, hf⟩, -⟩ := h
  by_contra hn
  exact ha (hf (by simpa using hn)).2.1

/-- In OFFLINE the line unit is IDLE. -/
theorem State.LineSafe.not_offline {s : State} (h : s.LineSafe) (ha : s.line.activity ≠ .idle) :
    s.member.lineState ≠ .offline := by
  obtain ⟨⟨-, -, -, -, -, hi, -⟩, -⟩ := h
  exact fun e => ha (hi e)

/-- A line unit in RECEIVING, on the line and with no first turn due, is sound with votes that agree. -/
theorem State.LineSafe.of_receiving {s : State} (hq : s.line.Quiet) (hv : s.VotesAgree)
    (hn : s.member.lineState ≠ .offline) (hf : s.line.firstTurnDue = false) : s.LineSafe :=
  .of_quiet hq hv (fun h => absurd h hn) (fun h => by rw [hf] at h; cases h)

/-- R13: a frame that starts in ACTIVE. -/
theorem State.LineSafe.of_sendFrame {s t : State} {f : OwnFrame} (hs : s.VotesAgree) (ha : s.member.lineState = .active)
    (hd : s.line.firstTurnDue = false) (hl : t.line = s.line.sendFrame f) (hm : t.member = s.member) : t.LineSafe := by
  obtain ⟨hv, -⟩ := hs
  unfold State.LineSafe State.LineSound State.DriverSound State.inFlight
  rw [hl, hm, hv]
  simp [LineUnit.sendFrame, Activity.sendsOwn, ha, hd]

/-! ## Turns -/

/-- R8, R78: own turn begins, on an idle line with no first turn due. -/
theorem State.LineSafe.ownTurnBegins {s : State} (h : s.LineSafe) (ha : s.line.activity = .idle)
    (hf : s.line.firstTurnDue = false) : s.ownTurnBegins.LineSafe := by
  rcases s.ownTurnBegins_cases with e | ⟨hm, f, e⟩
  · rwa [e]
  · have hact : s.member.lineState = .active := by
      simp only [State.mayTransmit, Bool.and_eq_true, beq_iff_eq] at hm
      exact hm.1.1
    exact .of_sendFrame (h.votesAgree (h.quiet (.inl ha)).1) hact hf e s.ownTurnBegins_member

theorem State.LineSafe.roundBoundary {s : State} (h : s.LineSafe) : s.roundBoundary.LineSafe :=
  h.frame s.roundBoundary_only (by decide) (by decide) (by decide)

theorem State.LineSafe.drawn {s : State} (h : s.LineSafe) : s.drawn.LineSafe :=
  h.frame s.drawn_only (by decide) (by decide) (by decide)

/-- The turn counter may move while no first turn is due. -/
theorem State.LineSafe.advanceTurn {s : State} (h : s.LineSafe) (ha : s.line.activity = .idle)
    (hf : s.line.firstTurnDue = false) :
    s.advanceTurn.LineSafe ∧ s.advanceTurn.line.activity = .idle ∧ s.advanceTurn.line.firstTurnDue = false := by
  have hq := h.quiet (.inl ha)
  have hl : s.advanceTurn.LineSafe := by
    refine .of_quiet ?_ ((h.votesAgree hq.1).congr s.advanceTurn_member) ?_ ?_
    · rw [s.advanceTurn_line]; exact hq
    · rw [s.advanceTurn_line]; exact fun _ => ha
    · rw [s.advanceTurn_line]; exact fun hd => by rw [hf] at hd; cases hd
  rw [s.advanceTurn_line]
  exact ⟨hl, ha, hf⟩

theorem State.LineSafe.beginTurnIdle {s : State} (h : s.LineSafe) (ha : s.line.activity = .idle)
    (hf : s.line.firstTurnDue = false) : s.beginTurnIdle.LineSafe := by
  obtain ⟨hl, hi, hn⟩ := h.advanceTurn ha hf
  have own : s.advanceTurn.drawn.roundBoundary.ownTurnBegins.LineSafe :=
    hl.drawn.roundBoundary.ownTurnBegins (by rw [State.roundBoundary_line]; exact hi)
      (by rw [State.roundBoundary_line]; exact hn)
  unfold State.beginTurnIdle
  simp only []
  split
  · split
    · exact own
    · exact (hl.drawn.ownTurnBegins hi hn).roundBoundary
  · split
    · exact hl.roundBoundary
    · split
      · exact hl.ownTurnBegins hi hn
      · exact hl

/-- R12: the first turn after sync is turn 0 and is no longer due. -/
theorem State.LineSafe.startFirstTurn {s : State} (h : s.LineSafe) (ha : s.line.activity = .idle) :
    s.startFirstTurn.LineSafe :=
  have hq := h.quiet (.inl ha)
  .of_quiet (s := s.startFirstTurn) hq (h.votesAgree hq.1) (fun _ => ha) (fun hd => by cases hd)

theorem State.LineSafe.firstTurnBegins {s : State} (h : s.LineSafe) (ha : s.line.activity = .idle) :
    s.firstTurnBegins.LineSafe := by
  unfold State.firstTurnBegins
  simp only []
  split
  · exact (h.startFirstTurn ha).ownTurnBegins ha rfl
  · exact h.startFirstTurn ha

/-! ## Membership -/

/-- R29: abandoning a reception leaves what drives the line. -/
theorem State.abandonReception_sameDrive (s : State) : s.line.SameDrive s.abandonReception.state.line := by
  have hs := s.endReceptionSlot_eq.1
  unfold State.abandonReception
  split
  · split
    · simp only [Upd.on_parts, State.putLine_line, hs]
      exact ⟨rfl, rfl, rfl, rfl, rfl, rfl⟩
    · exact ⟨rfl, rfl, rfl, rfl, rfl, rfl⟩
  · exact ⟨rfl, rfl, rfl, rfl, rfl, rfl⟩

/-- A move of the line state other than to OFFLINE leaves what drives the line. -/
theorem State.moveLineState_sameDrive (s : State) (l : LineState) (h : l ≠ .offline) :
    s.line.SameDrive (s.moveLineState l).state.line := by
  unfold State.moveLineState
  split
  · exact ⟨rfl, rfl, rfl, rfl, rfl, rfl⟩
  · cases l with
    | offline => exact absurd rfl h
    | syncing => exact ⟨rfl, rfl, rfl, rfl, rfl, rfl⟩
    | leaving => exact (s.putLineState .leaving).abandonReception_sameDrive
    | active => exact ⟨rfl, rfl, rfl, rfl, rfl, rfl⟩

/-- R30: the line unit after entry to OFFLINE. -/
theorem State.moveLineState_offline_line (s : State) (h : s.member.lineState ≠ .offline) :
    (s.moveLineState .offline).state.line = s.line.atOffline := by
  have hb : (LineState.offline == s.member.lineState) = false := by simpa using Ne.symm h
  simp only [State.moveLineState, hb]
  exact (s.putLineState .offline).enterOffline_line

/-- R25 to R29: the line state that new votes lead to agrees with them, but for an own frame that holds it in LEAVING. -/
theorem nextLineState_agrees {l : LineState} {empty inFlight : Bool} (hf : inFlight = true → l = .active ∨ l = .leaving)
    (hl : l = .leaving → inFlight = true) :
    (empty = true ↔ nextLineState l empty inFlight = .offline ∨ nextLineState l empty inFlight = .leaving)
      ∧ (nextLineState l empty inFlight = .leaving → inFlight = true)
      ∧ (inFlight = true → nextLineState l empty inFlight = .active ∨ nextLineState l empty inFlight = .leaving) := by
  revert hf hl
  cases l <;> cases empty <;> cases inFlight <;> decide

/-- R28: without an own frame new votes leave ACTIVE, or lead to OFFLINE. -/
theorem nextLineState_active (empty : Bool) (h : nextLineState .active empty false ≠ .offline) :
    nextLineState .active empty false = .active := by
  cases empty with
  | false => rfl
  | true => exact absurd rfl h

/-- R30: entry to OFFLINE by new votes, without an own frame. -/
theorem State.LineSafe.applyVotes_offline {s : State} (h : s.LineSafe) (v : Vector Vote 3) (hv : votesEmpty v = true)
    (hn : nextLineState s.member.lineState (votesEmpty v) s.inFlight = .offline) (ho : s.line.own = none) :
    (s.applyVotes v).state.LineSafe := by
  have hmem := s.applyVotes_member v
  have hline := s.applyVotes_line v
  rw [hn] at hmem hline
  have agree : (s.applyVotes v).state.VotesAgree := by simp [State.VotesAgree, hmem, hv]
  by_cases hcur : s.member.lineState = .offline
  · have e : (s.applyVotes v).state.line = s.line := by
      rw [hline]
      simp [State.moveLineState, hcur]
    obtain ⟨⟨-, -, -, -, -, hi, hf⟩, -⟩ := id h
    refine .of_quiet (by rw [e]; exact h.quiet (.inl (hi hcur))) agree (fun _ => by rw [e]; exact hi hcur) (fun hdue => ?_)
    rw [e] at hdue
    rw [(hf hdue).1] at hcur
    cases hcur
  · have e : (s.applyVotes v).state.line = s.line.atOffline := by
      rw [hline]
      exact (s.putVotes v).moveLineState_offline_line hcur
    exact .of_quiet (by rw [e]; exact ⟨ho, rfl, rfl, .inl rfl⟩) agree (fun _ => by rw [e]; rfl)
      (fun hdue => by rw [e] at hdue; cases hdue)

/-- R23: new votes keep the invariant. -/
theorem State.LineSafe.applyVotes {s : State} (h : s.LineSafe) (v : Vector Vote 3) : (s.applyVotes v).state.LineSafe := by
  obtain ⟨⟨-, hl, hs, hw, hm, -, hf⟩, hd⟩ := id h
  obtain ⟨hne, hleave, hfl⟩ := nextLineState_agrees (empty := votesEmpty v) hm hl
  by_cases hoff : nextLineState s.member.lineState (votesEmpty v) s.inFlight = .offline
  · refine h.applyVotes_offline v (hne.2 (.inl hoff)) hoff ?_
    by_contra ho
    rcases hfl (by simpa [State.inFlight, Option.isSome_iff_ne_none] using ho) with e | e <;> rw [hoff] at e <;> cases e
  · obtain ⟨ha, ho, hfd, ht, hdn, hx⟩ := (s.putVotes v).moveLineState_sameDrive _ hoff
    rw [← s.applyVotes_line v] at ha ho hfd ht hdn hx
    have hfly : (s.applyVotes v).state.inFlight = s.inFlight := by simp only [State.inFlight, ho]; rfl
    unfold State.LineSafe State.LineSound State.DriverSound
    rw [hfly, s.applyVotes_member v, ha, hfd, ht, hdn, hx]
    refine ⟨⟨hne, hleave, hs, hw, hfl, fun e => absurd e hoff, fun hdue => ?_⟩, hd⟩
    obtain ⟨hact, hidle, hturn⟩ := hf hdue
    have hnf : s.inFlight = false := by
      simp only [State.inFlight, (h.quiet (.inl hidle)).1, Option.isSome_none]
    rw [hact, hnf] at hoff ⊢
    exact ⟨nextLineState_active _ hoff, hidle, hturn⟩

end Sys2Proof.Machine
end

section
/-! O56, row by row: the resets, the rows of the line, the commands. -/

namespace Sys2Proof.Machine

/-- The next state of an answer, if there is one, keeps the invariant of the line. -/
def LineSafeAnswer (a : Answer) : Prop := ∀ t, a = .next t → t.LineSafe

theorem lineSafeAnswer_next {t : State} (h : t.LineSafe) : LineSafeAnswer (.next t) := by
  rintro u ⟨⟩
  exact h

variable {s : State}

/-! ## Line events -/

theorem State.tracking_iff (s : State) :
    s.tracking = true ↔ s.member.lineState = .active ∨ s.member.lineState = .leaving := by
  simp [State.tracking]

theorem execTurnBegins_lineSafe (h : s.LineSafe) : LineSafeAnswer (execTurnBegins s) := by
  unfold execTurnBegins
  split
  next hc =>
    simp only [Bool.and_eq_true, beq_iff_eq] at hc
    refine lineSafeAnswer_next ?_
    split
    · exact h.firstTurnBegins hc.2
    next hd => exact h.beginTurnIdle hc.2 (by simpa using hd)
  next => exact lineSafeAnswer_next h

/-- R6, R8: a turn that begins at a start bit moves the turn counter and, at the wrap, the round number. -/
theorem State.beginTurnBusy_line (s : State) :
    s.beginTurnBusy.line = s.advanceTurn.line ∧ s.beginTurnBusy.member = s.member := by
  unfold State.beginTurnBusy
  split
  · exact ⟨s.advanceTurn.roundBoundary_line, s.advanceTurn.roundBoundary_member.trans s.advanceTurn_member⟩
  · exact ⟨rfl, s.advanceTurn_member⟩

theorem State.turnAtActivity_member (s : State) : s.turnAtActivity.member = s.member := by
  unfold State.turnAtActivity
  split
  · exact s.startFirstTurn_only.member (by decide) (by decide) (by decide)
  · split
    · exact s.beginTurnBusy_line.2
    · rfl

/-- R8: a turn that begins at a start bit sends nothing, and no first turn is due after it in ACTIVE or LEAVING. -/
theorem State.turnAtActivity_line (s : State) :
    s.turnAtActivity.line.activity = s.line.activity ∧ s.turnAtActivity.line.own = s.line.own
      ∧ s.turnAtActivity.line.den = s.line.den ∧ s.turnAtActivity.line.txd = s.line.txd
      ∧ s.turnAtActivity.line.firstTurnDue = (s.line.firstTurnDue && !s.tracking) := by
  unfold State.turnAtActivity
  split
  next h =>
    simp only [Bool.and_eq_true] at h
    simp [State.startFirstTurn, h]
  next h =>
    have hd : (s.line.firstTurnDue && !s.tracking) = s.line.firstTurnDue := by
      cases hf : s.line.firstTurnDue <;> simp_all
    rw [hd]
    split
    · rw [s.beginTurnBusy_line.1, s.advanceTurn_line]
      exact ⟨rfl, rfl, rfl, rfl, rfl⟩
    · exact ⟨rfl, rfl, rfl, rfl, rfl⟩

theorem execActivityBegins_lineSafe (h : s.LineSafe) : LineSafeAnswer (execActivityBegins s) := by
  unfold execActivityBegins
  split
  next hc =>
    simp only [Bool.and_eq_true, beq_iff_eq] at hc
    obtain ⟨⟨hsamp, hi⟩, -⟩ := hc
    obtain ⟨ho, hden, htxd, -⟩ := h.quiet (.inl hi)
    obtain ⟨-, hown, hd, hx, hf⟩ := s.turnAtActivity_line
    have hn : s.member.lineState ≠ .offline := by simpa [State.sampling] using hsamp
    refine lineSafeAnswer_next (.of_receiving ?_ ?_ ?_ ?_)
    · exact ⟨hown.trans ho, hd.trans hden, hx.trans htxd, .inr rfl⟩
    · exact (h.votesAgree ho).congr s.turnAtActivity_member
    · rw [show (s.turnAtActivity.beginReception []).member = s.member from s.turnAtActivity_member]
      exact hn
    · refine Eq.trans hf ?_
      cases hdue : s.line.firstTurnDue with
      | false => rfl
      | true =>
        obtain ⟨⟨-, -, -, -, -, -, hdueActive⟩, -⟩ := h
        simp [State.tracking, (hdueActive hdue).1]
  next => exact lineSafeAnswer_next h

/-- R5, R9, R10, R17: header byte 0 leaves what drives the line, but for the turn counter. -/
theorem State.headerZero_line_keeps (s : State) (pre h0 : RxChar) :
    (s.headerZero pre h0).line.activity = s.line.activity ∧ (s.headerZero pre h0).line.own = s.line.own
      ∧ (s.headerZero pre h0).line.den = s.line.den ∧ (s.headerZero pre h0).line.txd = s.line.txd
      ∧ (s.headerZero pre h0).line.firstTurnDue = s.line.firstTurnDue
      ∧ (s.headerZero pre h0).line.checkErrors = s.line.checkErrors := by
  unfold State.headerZero
  simp only []
  split
  · exact ⟨rfl, rfl, rfl, rfl, rfl, rfl⟩
  · split
    · rw [State.foreignUse_line, State.slip_line]
      exact ⟨rfl, rfl, rfl, rfl, rfl, rfl⟩
    · split
      · rw [State.frameStart_line, State.slip_line]
        exact ⟨rfl, rfl, rfl, rfl, rfl, rfl⟩
      · rw [State.frameStart_line]
        exact ⟨rfl, rfl, rfl, rfl, rfl, rfl⟩

theorem State.headerZero_member (s : State) (pre h0 : RxChar) : (s.headerZero pre h0).member = s.member :=
  (s.headerZero_only pre h0).member (by decide) (by decide) (by decide)

/-- A line unit in RECEIVING stays sound when an action leaves what drives the line, but for the turn counter. -/
theorem State.LineSafe.receiving_step {t : State} (h : s.LineSafe) (ha : s.line.activity = .receiving)
    (hta : t.line.activity = .receiving) (ho : t.line.own = s.line.own) (hd : t.line.den = s.line.den)
    (hx : t.line.txd = s.line.txd) (hf : t.line.firstTurnDue = s.line.firstTurnDue) (hm : t.member = s.member) :
    t.LineSafe := by
  obtain ⟨hown, hden, htxd, -⟩ := h.quiet (.inr ha)
  have hne : s.line.activity ≠ .idle := by rw [ha]; decide
  exact .of_receiving ⟨ho.trans hown, hd.trans hden, hx.trans htxd, .inr hta⟩ ((h.votesAgree hown).congr hm)
    (by rw [hm]; exact h.not_offline hne) (hf.trans (h.not_due hne))

theorem execTurnCheck_lineSafe (chars : List RxChar) (h : s.LineSafe) : LineSafeAnswer (execTurnCheck chars s) := by
  unfold execTurnCheck
  split
  next rx ha _ =>
    split
    next pre h0 _ _ =>
      obtain ⟨hact, ho, hd, hx, hf, -⟩ := s.headerZero_line_keeps pre h0
      exact lineSafeAnswer_next (h.receiving_step ha (hact.trans ha) ho hd hx hf (s.headerZero_member pre h0))
    next => exact lineSafeAnswer_next h
  next => exact lineSafeAnswer_next h

/-- R18: a reception end leaves the driver, and the line unit idle or receiving. -/
theorem State.receptionEnd_drive (s : State) (rx : Reception) (v : Classified) (ha : s.line.activity = .receiving) :
    ((s.receptionEnd rx v).line.activity = .idle ∨ (s.receptionEnd rx v).line.activity = .receiving)
      ∧ (s.receptionEnd rx v).line.own = s.line.own ∧ (s.receptionEnd rx v).line.den = s.line.den
      ∧ (s.receptionEnd rx v).line.txd = s.line.txd
      ∧ (s.receptionEnd rx v).line.firstTurnDue = s.line.firstTurnDue := by
  obtain ⟨c, b, hl⟩ := s.receptionEnd_line rx v
  rw [hl, s.receptionCounted_line v]
  unfold LineUnit.receptionOver
  split
  · exact ⟨.inl rfl, rfl, rfl, rfl, rfl⟩
  · exact ⟨.inr ha, rfl, rfl, rfl, rfl⟩

theorem State.LineSafe.receptionEnd (h : s.LineSafe) (rx : Reception) (v : Classified)
    (ha : s.line.activity = .receiving) : (s.receptionEnd rx v).LineSafe := by
  obtain ⟨hact, ho, hd, hx, hf⟩ := s.receptionEnd_drive rx v ha
  obtain ⟨hown, hden, htxd, -⟩ := h.quiet (.inr ha)
  have hne : s.line.activity ≠ .idle := by rw [ha]; decide
  have hoff := h.not_offline hne
  have hagree : (s.receptionEnd rx v).VotesAgree ∧ (s.receptionEnd rx v).member.lineState ≠ .offline := by
    obtain ⟨hv, hl⟩ := h.votesAgree hown
    rw [State.VotesAgree, s.receptionEnd_member, s.receptionCounted_member v]
    by_cases hs : s.syncsBy v = true
    · simp [hs, hv, hoff]
    · simp [hs, hv, hl, hoff]
  exact .of_quiet ⟨ho.trans hown, hd.trans hden, hx.trans htxd, hact⟩ hagree.1 (fun e => absurd e hagree.2)
    (fun e => by rw [hf, h.not_due hne] at e; cases e)

theorem execReceptionEnd_lineSafe (rest : List RxChar) (h : s.LineSafe) :
    LineSafeAnswer (execReceptionEnd rest s) := by
  unfold execReceptionEnd
  split
  next rx ha _ =>
    simp only []
    split
    · exact lineSafeAnswer_next (h.receptionEnd rx _ ha)
    · exact lineSafeAnswer_next h
  next => exact lineSafeAnswer_next h

/-! ## Own frames -/

/-- R25, R29: an own frame stands in ACTIVE or LEAVING only, and no first turn is due beside it. -/
theorem State.LineSafe.own_frame (h : s.LineSafe) {f : OwnFrame} (ho : s.line.own = some f) :
    (s.member.lineState = .active ∨ s.member.lineState = .leaving) ∧ s.line.firstTurnDue = false
      ∧ (votesEmpty s.member.votes = true ↔ s.member.lineState = .leaving) := by
  have hfly : s.inFlight = true := by simp [State.inFlight, ho]
  have hn : s.line.activity ≠ .idle := fun e => by
    obtain ⟨⟨-, -, hs, -⟩, -⟩ := h
    rcases hs hfly with e' | e' <;> rw [e] at e' <;> cases e'
  refine ⟨?_, h.not_due hn, ?_⟩
  · obtain ⟨⟨-, -, -, -, hm, -⟩, -⟩ := h
    exact hm hfly
  · have hoff := h.not_offline hn
    obtain ⟨⟨hv, -⟩, -⟩ := h
    rw [hv]
    simp [hoff]

/-- R29: after the end of an own frame in LEAVING the node is OFFLINE and sound. -/
theorem State.LineSafe.transmissionEnd_leave (h : s.LineSafe) {f : OwnFrame} (raw : RawResult)
    (ho : s.line.own = some f) (hs : s.member.lineState = .leaving) : (s.transmissionEnd f raw).LineSafe := by
  obtain ⟨hl, hm⟩ := s.transmissionEnd_line_leave f raw hs
  obtain ⟨-, -, hv⟩ := h.own_frame ho
  refine .of_quiet (by rw [hl]; exact ⟨rfl, rfl, rfl, .inl rfl⟩) ?_ (fun _ => by rw [hl]; rfl)
    (fun e => by rw [hl] at e; cases e)
  simp [State.VotesAgree, hm, hv, hs]

/-- R15: after the end of an own frame in ACTIVE votes and line state agree, and the driver rests. -/
theorem State.LineSafe.transmissionEnd_stay (h : s.LineSafe) {f : OwnFrame} (raw : RawResult)
    (ho : s.line.own = some f) (hs : s.member.lineState = .active) :
    (s.transmissionEnd f raw).VotesAgree ∧ (s.transmissionEnd f raw).member.lineState = .active
      ∧ (s.transmissionEnd f raw).line = s.line.frameOver ∧ s.line.firstTurnDue = false := by
  obtain ⟨hl, hm⟩ := s.transmissionEnd_line_stay f raw (by rw [hs]; decide)
  obtain ⟨-, hd, hv⟩ := h.own_frame ho
  exact ⟨by simp [State.VotesAgree, hm, hv, hs], by rw [hm, hs], hl, hd⟩

/-- R4, R15: the end of an own frame with its line time. -/
theorem State.LineSafe.transmissionEnd_endLineTime (h : s.LineSafe) {f : OwnFrame} (raw : RawResult)
    (ho : s.line.own = some f) : (s.transmissionEnd f raw).endLineTime.LineSafe := by
  rcases (h.own_frame ho).1 with hs | hs
  · obtain ⟨hv, -, hl, hd⟩ := h.transmissionEnd_stay raw ho hs
    refine .of_quiet ?_ (hv.congr rfl) (fun _ => rfl) (fun e => ?_)
    · simp [State.endLineTime, hl, LineUnit.frameOver, LineUnit.Quiet]
    · simp [State.endLineTime, hl, LineUnit.frameOver, hd] at e
  · have ht := h.transmissionEnd_leave raw ho hs
    obtain ⟨hl, hm⟩ := s.transmissionEnd_line_leave f raw hs
    refine ht.of_sameDrive ?_ rfl rfl
    simp [State.endLineTime, hl, LineUnit.SameDrive, LineUnit.frameOver, LineUnit.atOffline]

/-- R14: the characters of the activity that are known at a collision: those read back clean, and the one that was not. -/
def collisionChars (f : OwnFrame) (k : Nat) (c : RxChar) : List RxChar :=
  (f.chars.take k).map (fun b => ({ value := b, framingError := false } : RxChar)) ++ [c]

/-- R14: the activity is received from its first start bit. -/
def State.receivedOn (s : State) (chars : List RxChar) : State :=
  s.putLine { s.line with
    activity := .receiving,
    reception := some { phase := .opening, chars := chars, activeAtStart := s.member.lineState == .active } }

theorem State.receivedOn_only (s : State) (chars : List RxChar) : s.OnlyChanges (s.receivedOn chars) [.line] :=
  s.putLine_only _

/-- R10, R14: by the characters known, the preamble is received on, header byte 0 is checked, or the use is foreign. -/
theorem State.receiveAfterCollision_cases (s : State) (f : OwnFrame) (k : Nat) (c : RxChar) :
    ((∃ c', collisionChars f k c = [c'])
        ∧ s.receiveAfterCollision f k c = s.receivedOn (collisionChars f k c))
      ∨ (∃ pre h0, collisionChars f k c = [pre, h0]
        ∧ s.receiveAfterCollision f k c = (s.receivedOn (collisionChars f k c)).headerZero pre h0)
      ∨ ((collisionChars f k c).length ≠ 1 ∧ (collisionChars f k c).length ≠ 2
        ∧ s.receiveAfterCollision f k c
          = (s.receivedOn (collisionChars f k c)).foreignUse (collisionChars f k c)) := by
  have e : s.receiveAfterCollision f k c
      = match collisionChars f k c with
        | [_] => s.receivedOn (collisionChars f k c)
        | [pre, h0] => (s.receivedOn (collisionChars f k c)).headerZero pre h0
        | _ => (s.receivedOn (collisionChars f k c)).foreignUse (collisionChars f k c) := rfl
  rw [e]
  match collisionChars f k c with
  | [] => exact .inr (.inr ⟨by simp, by simp, rfl⟩)
  | [c'] => exact .inl ⟨⟨c', rfl⟩, rfl⟩
  | [pre, h0] => exact .inr (.inl ⟨pre, h0, rfl, rfl⟩)
  | _ :: _ :: _ :: _ => exact .inr (.inr ⟨by simp, by simp, rfl⟩)

/-- R14: the activity received on after a collision: RECEIVING, the driver at rest. -/
theorem State.receiveAfterCollision_line_keeps (s : State) (f : OwnFrame) (k : Nat) (c : RxChar) :
    (s.receiveAfterCollision f k c).line.activity = .receiving
      ∧ (s.receiveAfterCollision f k c).line.own = s.line.own ∧ (s.receiveAfterCollision f k c).line.den = s.line.den
      ∧ (s.receiveAfterCollision f k c).line.txd = s.line.txd
      ∧ (s.receiveAfterCollision f k c).line.firstTurnDue = s.line.firstTurnDue
      ∧ (s.receiveAfterCollision f k c).member = s.member := by
  rcases s.receiveAfterCollision_cases f k c with ⟨-, e⟩ | ⟨pre, h0, -, e⟩ | ⟨-, -, e⟩
  · rw [e]
    exact ⟨rfl, rfl, rfl, rfl, rfl, rfl⟩
  · obtain ⟨ha, ho, hd, hx, hf, -⟩ := (s.receivedOn (collisionChars f k c)).headerZero_line_keeps pre h0
    rw [e]
    exact ⟨ha, ho, hd, hx, hf, State.headerZero_member _ pre h0⟩
  · rw [e, State.foreignUse_line, State.slip_line]
    exact ⟨rfl, rfl, rfl, rfl, rfl, (State.foreignUse_only _ _).member (by decide) (by decide) (by decide)⟩

theorem execCollision_lineSafe (k : Nat) (c : RxChar) (h : s.LineSafe) : LineSafeAnswer (execCollision k c s) := by
  unfold execCollision
  split
  next f _ ho =>
    split
    · split
      · refine lineSafeAnswer_next ?_
        rcases (h.own_frame ho).1 with hs | hs
        · obtain ⟨hv, hm, hl, hd⟩ := h.transmissionEnd_stay .collision ho hs
          obtain ⟨ra, ro, rd, rx, rf, rm⟩ := (s.transmissionEnd f .collision).receiveAfterCollision_line_keeps f k c
          rw [hl] at ro rd rx rf
          rw [if_pos (by simp [State.sampling, hm])]
          exact .of_receiving ⟨ro, rd, rx, .inr ra⟩ (hv.congr rm) (by rw [rm, hm]; decide) (rf.trans hd)
        · rw [if_neg (by simp [State.sampling, (s.transmissionEnd_line_leave f .collision hs).2])]
          exact h.transmissionEnd_leave .collision ho hs
      · exact lineSafeAnswer_next h
    · exact lineSafeAnswer_next h
  next => exact lineSafeAnswer_next h

/-- R15: the own frame waits for its reply: the driver rests, the flag stays. -/
theorem State.LineSafe.awaitReply (h : s.LineSafe) {f : OwnFrame} (ho : s.line.own = some f) :
    (s.putLine { s.line with activity := .awaitingReply, den := false, txd := [] }).LineSafe := by
  obtain ⟨hst, hd, hv⟩ := h.own_frame ho
  unfold State.LineSafe State.LineSound State.DriverSound State.inFlight Activity.sendsOwn
  rcases hst with hs | hs <;> simp [ho, hd, hv, hs]

theorem execCheckWordReadBack_lineSafe (h : s.LineSafe) : LineSafeAnswer (execCheckWordReadBack s) := by
  unfold execCheckWordReadBack
  split
  next f _ ho =>
    split
    · exact lineSafeAnswer_next (h.transmissionEnd_endLineTime _ ho)
    · exact lineSafeAnswer_next (h.awaitReply ho)
  next => exact lineSafeAnswer_next h

theorem execTransmissionEnd_lineSafe (reply : Option RxChar) (h : s.LineSafe) :
    LineSafeAnswer (execTransmissionEnd reply s) := by
  unfold execTransmissionEnd
  split
  next f _ ho => exact lineSafeAnswer_next (h.transmissionEnd_endLineTime _ ho)
  next => exact lineSafeAnswer_next h

/-! ## Reply byte, line time, sync search -/

theorem execReplyByteStart_lineSafe (h : s.LineSafe) : LineSafeAnswer (execReplyByteStart s) := by
  unfold execReplyByteStart
  split
  next c ha _ =>
    refine lineSafeAnswer_next ?_
    have hne : s.line.activity ≠ .idle := by rw [ha]; decide
    have ho := (h.quiet (.inr ha)).1
    obtain ⟨hv, hl⟩ := h.votesAgree ho
    unfold State.LineSafe State.LineSound State.DriverSound State.inFlight
    simp [ho, hv, hl, h.not_due hne, h.not_offline hne]
  next => exact lineSafeAnswer_next h

theorem execReplyByteEnd_lineSafe (h : s.LineSafe) : LineSafeAnswer (execReplyByteEnd s) := by
  unfold execReplyByteEnd
  split
  next hc =>
    simp only [Bool.and_eq_true, beq_iff_eq, Bool.not_eq_true'] at hc
    obtain ⟨ha, hfly⟩ := hc
    have ho : s.line.own = none := by simpa [State.inFlight] using hfly
    have hne : s.line.activity ≠ .idle := by rw [ha]; decide
    exact lineSafeAnswer_next (.of_receiving (s := s.putLine _) ⟨ho, rfl, rfl, .inr rfl⟩ (h.votesAgree ho)
      (h.not_offline hne) (h.not_due hne))
  next => exact lineSafeAnswer_next h

theorem execLineTimeEnd_lineSafe (h : s.LineSafe) : LineSafeAnswer (execLineTimeEnd s) := by
  unfold execLineTimeEnd
  split
  next rx ha _ _ =>
    split
    · obtain ⟨ho, hd, hx, -⟩ := h.quiet (.inr ha)
      have hdue := h.not_due (by rw [ha]; decide)
      exact lineSafeAnswer_next (.of_quiet (s := s.endLineTime) ⟨ho, hd, hx, .inl rfl⟩ (h.votesAgree ho) (fun _ => rfl)
        (fun e => by rw [show s.endLineTime.line.firstTurnDue = s.line.firstTurnDue from rfl, hdue] at e; cases e))
    · exact lineSafeAnswer_next h
  next => exact lineSafeAnswer_next h

/-- R12: sync by the sync idle count: the first turn is due in ACTIVE, with turn counter 31. -/
theorem State.LineSafe.syncByIdle (h : s.LineSafe) (hs : s.member.lineState = .syncing) (ha : s.line.activity = .idle) :
    s.syncByIdle.LineSafe := by
  obtain ⟨ho, hd, hx, -⟩ := h.quiet (.inl ha)
  obtain ⟨hv, -⟩ := h.votesAgree ho
  have hm : s.syncByIdle.member = { s.member with lineState := .active } := State.syncEstablished_member _
  refine .of_quiet (by rw [s.syncByIdle_line]; exact ⟨ho, hd, hx, .inl ha⟩) ?_ ?_ ?_
  · simp [State.VotesAgree, hm, hv, hs]
  · rw [hm]; exact fun e => by cases e
  · rw [hm, s.syncByIdle_line]; exact fun _ => ⟨rfl, ha, rfl⟩

theorem execSyncIdleCount_lineSafe (h : s.LineSafe) : LineSafeAnswer (execSyncIdleCount s) := by
  unfold execSyncIdleCount
  split
  next hc =>
    simp only [Bool.and_eq_true, beq_iff_eq] at hc
    obtain ⟨hs, ha⟩ := hc
    refine lineSafeAnswer_next ?_
    split
    · exact h.syncByIdle hs ha
    · exact (h.syncByIdle hs ha).firstTurnBegins (by rw [s.syncByIdle_line]; exact ha)
  next => exact lineSafeAnswer_next h

theorem execSyncEntryIdleSeen_lineSafe (h : s.LineSafe) : LineSafeAnswer (execSyncEntryIdleSeen s) := by
  unfold execSyncEntryIdleSeen
  split
  · exact lineSafeAnswer_next (h.of_sameDrive (t := s.putLine _) ⟨rfl, rfl, rfl, rfl, rfl, rfl⟩ rfl rfl)
  · exact lineSafeAnswer_next h

/-! ## Resets -/

theorem State.LineSafe.deviceReset (s : State) : s.deviceReset.LineSafe :=
  State.LineSafe.of_sameDrive ⟨State.reset_lineSound, State.reset_driverSound⟩ ⟨rfl, rfl, rfl, rfl, rfl, rfl⟩ rfl rfl

/-- R164: a port reset before the port's vote is withdrawn: its engine, mailboxes, channels, entries, queue, order. -/
def State.portCleared (s : State) (p : Port) : Upd :=
  ((((s.putEngine p (s.engine p).portReset).resetMailboxes p).on (fun s => (s.closeChannels p).freeEntries p)).andThen
    (fun s => s.emptyQueue p)).on (fun s => s.putOrder p .key)

/-- R164: after that the vote is withdrawn, and the local pass is made. -/
theorem State.portReset_eq (s : State) (p : Port) :
    s.portReset p
      = ((s.portCleared p).andThen (fun s => s.applyVotes (s.member.votes.set p .none))).state.localPass true := rfl

/-- R166: before its vote is withdrawn, a port reset touches the blocks of its port alone. -/
theorem State.portCleared_only (s : State) (p : Port) :
    s.OnlyChanges (s.portCleared p).state
      [.boxes, .completions, .refs, .orders, .seq, .channels, .entries, .store, .queues, .engines] := by
  refine Upd.on_only ?_ (fun t => (t.putOrder_only p _).mono (by decide))
  refine Upd.andThen_only ?_ (fun t => (t.emptyQueue_only p).mono (by decide))
  refine Upd.on_only ?_ (fun t =>
    ((t.closeChannels_only p).mono (by decide)).seq (State.freeEntries_only _ p) (by decide))
  exact ((s.putEngine_only p _).mono (by decide)).seq (State.resetMailboxes_only _ p) (by decide)

theorem State.LineSafe.portReset (h : s.LineSafe) (p : Port) : (s.portReset p).LineSafe := by
  have hc : (s.portCleared p).state.LineSafe := h.frame (s.portCleared_only p) (by decide) (by decide) (by decide)
  rw [State.portReset_eq, (Upd.andThen_parts _ _).1]
  exact (hc.applyVotes _).frame (State.localPass_only _ true) (by decide) (by decide) (by decide)

theorem execPortReset_lineSafe (p : Port) (h : s.LineSafe) : LineSafeAnswer (execPortReset p s) := by
  unfold execPortReset
  split
  · exact lineSafeAnswer_next h
  · exact lineSafeAnswer_next
      ((h.frame (t := s.setPrst p true) (s.putEngine_only p _) (by decide) (by decide) (by decide)).portReset p)

/-! ## Commands -/

theorem lineSafe_of_ports (u v : State) (h : u.OnlyChanges v [.engines, .queues]) (hu : u.LineSafe) : v.LineSafe :=
  hu.frame h (by decide) (by decide) (by decide)

/-- The release of a command whose body keeps the invariant. -/
theorem takeCommand_lineSafe (p : Port) (c : Command) (body : State → State × Result)
    (hb : ∀ u : State, u.LineSafe → (body u).1.LineSafe) (h : s.LineSafe) :
    LineSafeAnswer (.next (s.takeCommand p c body)) :=
  lineSafeAnswer_next (State.takeCode_keeps lineSafe_of_ports p c.code body hb h)

/-- The release of a command whose body leaves the line unit, the votes and the line state. -/
theorem takeCommand_frame_lineSafe (p : Port) (c : Command) (body : State → State × Result) (l : List Part)
    (hb : ∀ u : State, u.OnlyChanges (body u).1 l) (hl : Part.line ∉ l) (hv : Part.votes ∉ l) (hm : Part.lineState ∉ l)
    (h : s.LineSafe) : LineSafeAnswer (.next (s.takeCommand p c body)) :=
  takeCommand_lineSafe p c body (fun u hu => hu.frame (hb u) hl hv hm) h

/-- The release of a read command whose effect keeps the invariant. -/
theorem takeRead_lineSafe (p : Port) (cmd : ReadCommand) (k : Nat) (effect : SideEffect → State → State)
    (he : ∀ (e : SideEffect) (u : State), u.LineSafe → (effect e u).LineSafe) (h : s.LineSafe) :
    LineSafeAnswer (.next (s.takeRead p cmd k effect)) :=
  lineSafeAnswer_next (State.takeRead_keeps lineSafe_of_ports p cmd k effect he h)

theorem voteBody_lineSafe (p : Port) (bytes : List Byte) (h : s.LineSafe) : (voteBody p bytes s).1.LineSafe := by
  unfold voteBody
  split
  · split
    · split
      · exact h
      · exact (h.applyVotes _).frame (Upd.finish_only _) (by decide) (by decide) (by decide)
    · exact h
  · exact h

theorem resetPortBody_lineSafe (p : Port) (bytes : List Byte) (h : s.LineSafe) :
    (resetPortBody p bytes s).1.LineSafe := by
  cases bytes with
  | nil => exact h
  | cons b bytes =>
    simp only [resetPortBody]
    exact h.portReset p

theorem reduceCounters_lineSafe (e : SideEffect) (h : s.LineSafe) : (reduceCounters e s).LineSafe := by
  unfold reduceCounters
  split
  · exact h.of_sameDrive ⟨rfl, rfl, rfl, rfl, rfl, rfl⟩ rfl rfl
  · exact h
  · exact h

theorem execReadSnapshot_lineSafe (p : Port) (cmd : ReadCommand) (arg : Byte) (h : s.LineSafe) :
    LineSafeAnswer (execReadSnapshot p cmd arg s) := by
  unfold execReadSnapshot
  split
  · split
    · exact lineSafeAnswer_next (lineSafe_of_ports _ _ (s.takeSnapshot_only p _ cmd arg) h)
    · exact lineSafeAnswer_next h
  · exact lineSafeAnswer_next h

theorem execBadCommand_lineSafe (p : Port) (code : Byte) (bytes : List Byte) (h : s.LineSafe) :
    LineSafeAnswer (execBadCommand p code bytes s) := by
  unfold execBadCommand
  split
  · exact lineSafeAnswer_next h
  · exact lineSafeAnswer_next (State.takeCode_keeps lineSafe_of_ports p code _ (fun _ hu => hu) h)

/-- R19, R25, R29, R30: every row keeps votes, line state, line activity state, own frame and driver in agreement. -/
theorem exec_lineSafe (c : Instr) (h : s.LineSafe) : LineSafeAnswer (exec c s) := by
  cases c with
  | deviceReset => exact lineSafeAnswer_next (.deviceReset s)
  | deviceResetEnds => exact lineSafeAnswer_next (h.of_sameDrive ⟨rfl, rfl, rfl, rfl, rfl, rfl⟩ rfl rfl)
  | portReset p => exact execPortReset_lineSafe p h
  | prstRelease p => exact lineSafeAnswer_next (lineSafe_of_ports _ _ ((s.putEngine_only p _).mono (by decide)) h)
  | transactionBegin p =>
    exact lineSafeAnswer_next (lineSafe_of_ports _ _ ((s.beginTransaction_only p).mono (by decide)) h)
  | readSnapshot p cmd arg => exact execReadSnapshot_lineSafe p cmd arg h
  | transactionWithoutCommand p =>
    exact lineSafeAnswer_next (State.atRelease_keeps lineSafe_of_ports p _ _ (fun _ _ hu => hu) h)
  | badCommand p code bytes => exact execBadCommand_lineSafe p code bytes h
  | vote p bytes => exact takeCommand_lineSafe p .vote _ (fun _ hu => voteBody_lineSafe p bytes hu) h
  | resetPort p bytes => exact takeCommand_lineSafe p .resetPort _ (fun _ hu => resetPortBody_lineSafe p bytes hu) h
  | nop p bytes =>
    exact takeCommand_lineSafe p .nop _ (fun u hu => by rw [nopBody_state]; exact hu) h
  | configure p bytes =>
    exact takeCommand_frame_lineSafe p .configure _ _ (configureBody_only · bytes) (by decide) (by decide) (by decide) h
  | resume p bytes =>
    exact takeCommand_frame_lineSafe p .resume _ _ (resumeBody_only · bytes) (by decide) (by decide) (by decide) h
  | load p bytes =>
    exact takeCommand_frame_lineSafe p .load _ _ (loadBody_only · p bytes) (by decide) (by decide) (by decide) h
  | request p bytes =>
    exact takeCommand_frame_lineSafe p .request _ _ (requestBody_only · p bytes) (by decide) (by decide) (by decide) h
  | abort p bytes =>
    exact takeCommand_frame_lineSafe p .abort _ _ (abortBody_only · p bytes) (by decide) (by decide) (by decide) h
  | clear p bytes =>
    exact takeCommand_frame_lineSafe p .clear _ _ (clearBody_only · p bytes) (by decide) (by decide) (by decide) h
  | claim p bytes =>
    exact takeCommand_frame_lineSafe p .claim _ _ (claimBody_only · p bytes) (by decide) (by decide) (by decide) h
  | releaseChannel p bytes =>
    exact takeCommand_frame_lineSafe p .releaseChannel _ _
      (fun u => ownerCommand_only u p bytes _ _ u.releaseChannel_only) (by decide) (by decide) (by decide) h
  | halt p bytes =>
    exact takeCommand_frame_lineSafe p .halt _ _
      (fun u => ownerCommand_only u p bytes _ _ (u.setChannelState_only _)) (by decide) (by decide) (by decide) h
  | openChannel p bytes =>
    exact takeCommand_frame_lineSafe p .openChannel _ _
      (fun u => ownerCommand_only u p bytes _ _ (u.setChannelState_only _)) (by decide) (by decide) (by decide) h
  | setEntry p bytes =>
    exact takeCommand_frame_lineSafe p .setEntry _ _ (setEntryBody_only · p bytes) (by decide) (by decide) (by decide) h
  | freeEntry p bytes =>
    exact takeCommand_frame_lineSafe p .freeEntry _ _ (freeEntryBody_only · p bytes) (by decide) (by decide) (by decide) h
  | setQueue p bytes =>
    exact takeCommand_frame_lineSafe p .setQueue _ _ (setQueueBody_only · p bytes) (by decide) (by decide) (by decide) h
  | release p bytes =>
    exact takeCommand_frame_lineSafe p .release _ _ (releaseBody_only · p bytes) (by decide) (by decide) (by decide) h
  | setPort p bytes =>
    exact takeCommand_frame_lineSafe p .setPort _ _ (setPortBody_only · p bytes) (by decide) (by decide) (by decide) h
  | acknowledge p bytes =>
    exact takeCommand_frame_lineSafe p .acknowledge _ _ (acknowledgeBody_only · p bytes) (by decide) (by decide)
      (by decide) h
  | readLine p k => exact takeRead_lineSafe p .line k _ (fun e _ hu => reduceCounters_lineSafe e hu) h
  | readCompletion p k =>
    exact takeRead_lineSafe p .completion k _
      (fun e u hu => hu.frame (dropReported_only u p e) (by decide) (by decide) (by decide)) h
  | peek p k =>
    exact takeRead_lineSafe p .peek k _
      (fun e u hu => hu.frame (pinHead_only u p e) (by decide) (by decide) (by decide)) h
  | take p k =>
    exact takeRead_lineSafe p .take k _
      (fun e u hu => hu.frame (takeHead_only u p e) (by decide) (by decide) (by decide)) h
  | readMailbox p k => exact takeRead_lineSafe p .mailbox k _ (fun _ _ hu => hu) h
  | readChannel p k => exact takeRead_lineSafe p .channel k _ (fun _ _ hu => hu) h
  | readEntry p k => exact takeRead_lineSafe p .entry k _ (fun _ _ hu => hu) h
  | readQueue p k => exact takeRead_lineSafe p .queue k _ (fun _ _ hu => hu) h
  | turnBegins => exact execTurnBegins_lineSafe h
  | activityBegins => exact execActivityBegins_lineSafe h
  | turnCheck chars => exact execTurnCheck_lineSafe chars h
  | receptionEnd rest => exact execReceptionEnd_lineSafe rest h
  | collision k c => exact execCollision_lineSafe k c h
  | checkWordReadBack => exact execCheckWordReadBack_lineSafe h
  | transmissionEnd reply => exact execTransmissionEnd_lineSafe reply h
  | replyByteStart => exact execReplyByteStart_lineSafe h
  | replyByteEnd => exact execReplyByteEnd_lineSafe h
  | lineTimeEnd => exact execLineTimeEnd_lineSafe h
  | syncIdleCount => exact execSyncIdleCount_lineSafe h
  | syncEntryIdleSeen => exact execSyncEntryIdleSeen_lineSafe h

/-- Settles O56: a step is the row of the front command, or idles. -/
theorem stepKeepsLineSound : Obligations.StepKeepsLineSound := by
  intro s t hl hd hstep
  unfold step at hstep
  split at hstep
  · cases hstep
    exact ⟨hl, hd⟩
  next c rest _ =>
    have h : State.LineSafe { s with pending := rest } := ⟨hl, hd⟩
    exact exec_lineSafe c h t hstep

end Sys2Proof.Machine
end

section
/-! O41, O45: a turn that begins with the line idle, and one that begins at a start bit. -/

namespace Sys2Proof.Machine

/-! ## When the own turn sends nothing -/

/-- The pending list and the mailboxes alone make a mailbox eligible. -/
theorem State.OnlyChanges.eligible {s t : State} {l : List Part} (h : s.OnlyChanges t l) (hb : Part.boxes ∉ l)
    (hr : Part.refs ∉ l) (r : Ref) : t.eligible r = s.eligible r := by
  have e : t.sched.refs = s.sched.refs := h.2 .refs hr
  have m := h.mailbox hb
  simp only [State.eligible, State.free, State.blocked, State.earlier, State.destination, State.kind, m, e]

/-- An even round number has bit 0 clear. -/
theorem getLsbD_zero_eq_false_iff (n : Byte) : n.getLsbD 0 = false ↔ n.toNat % 2 = 0 := by
  rw [← BitVec.testBit_toNat, Nat.testBit_zero]
  simp

/-- R78: the node may transmit. -/
theorem State.mayTransmit_iff (s : State) :
    s.mayTransmit = true
      ↔ s.member.lineState = .active ∧ s.mode = some .full
        ∧ (s.fault.state = .engaged ∨ s.fault.state = .guarded ∧ s.line.round.toNat % 2 = 0) := by
  simp [State.mayTransmit, ← getLsbD_zero_eq_false_iff, and_assoc]

/-- R78, R79: with nothing eligible there is no choice. -/
theorem State.choose_none {s : State} (h : ∀ r ∈ s.sched.refs, s.eligible r = false) : s.choose = none := by
  have he : s.eligibles = [] := List.filter_eq_nil_iff.2 (fun r hr => by simp [h r hr])
  have hp : ∀ p, s.choiceOf p = none := fun p => by
    unfold State.choiceOf
    split <;> simp [State.eligiblesOf, he, State.lowestKey]
  unfold State.choose
  split
  · rw [he]; rfl
  · simp [rotationFrom, hp]

/-- R78: a node that may not transmit, or has nothing eligible, sends nothing in its turn. -/
def State.SendsNothing (s : State) : Prop :=
  s.member.lineState ≠ .active ∨ s.mode ≠ some .full
    ∨ ¬ (s.fault.state = .engaged ∨ s.fault.state = .guarded ∧ s.line.round.toNat % 2 = 0)
    ∨ ∀ r ∈ s.sched.refs, s.eligible r = false

theorem State.SendsNothing.ownTurnBegins {s : State} (h : s.SendsNothing) : s.ownTurnBegins = s := by
  unfold State.ownTurnBegins
  split
  next hm =>
    obtain ⟨ha, hmo, hf⟩ := s.mayTransmit_iff.1 hm
    have he : ∀ r ∈ s.sched.refs, s.eligible r = false := by
      rcases h with h | h | h | h
      · exact absurd ha h
      · exact absurd hmo h
      · exact absurd hf h
      · exact h
    rw [State.choose_none he]
  next => rfl

/-- The line unit, the round number apart, has no part in this. -/
theorem State.SendsNothing.of_line {s t : State} (h : s.SendsNothing) (hf : s.OnlyChanges t [.line])
    (hr : t.line.round = s.line.round) : t.SendsNothing := by
  have hm := hf.member (by decide) (by decide) (by decide)
  have hfault : t.fault = s.fault := hf.2 .fault (by decide)
  have hrefs : t.sched.refs = s.sched.refs := hf.2 .refs (by decide)
  have he := hf.eligible (by decide) (by decide)
  simpa only [State.SendsNothing, State.mode, hm, hfault, hr, hrefs, he] using h

/-! ## A turn that begins with the line idle -/

variable (s : State)

theorem execTurnBegins_eq (hs : s.member.lineState = .active ∨ s.member.lineState = .leaving)
    (ha : s.line.activity = .idle) :
    exec .turnBegins s = .next (if s.line.firstTurnDue then s.firstTurnBegins else s.beginTurnIdle) := by
  simp [exec, execTurnBegins, s.tracking_iff.2 hs, ha]

theorem State.advanceTurn_line_inside (hw : s.line.turn ≠ 31) :
    s.advanceTurn.line = { s.line with turn := s.line.turn + 1, betweenTurns := false } := by
  rw [s.advanceTurn_line, if_neg hw]

theorem State.advanceTurn_line_wrap (hw : s.line.turn = 31) :
    s.advanceTurn.line = { s.line with turn := 0, round := s.line.round + 1, betweenTurns := false } := by
  rw [s.advanceTurn_line, if_pos hw, hw]
  rfl

theorem State.advanceTurn_own (h : s.line.turn = 31) :
    s.advanceTurn.isOwnTurn = true ↔ s.member.config.nodeAddress = 0 := by
  rw [State.isOwnTurn, s.advanceTurn_line_wrap h, s.advanceTurn_member, beq_iff_eq]
  exact eq_comm

/-- R6, R78: inside a round, a turn that is not the own one, or in which nothing is sent. -/
theorem State.beginTurnIdle_inside (hw : s.line.turn ≠ 31)
    (h : s.line.turn + 1 ≠ s.member.config.nodeAddress ∨ s.SendsNothing) : s.beginTurnIdle = s.advanceTurn := by
  have hwf : (s.line.turn == 31) = false := by simpa using hw
  have hr : s.advanceTurn.line.round = s.line.round := by rw [s.advanceTurn_line_inside hw]
  unfold State.beginTurnIdle
  simp only [hwf, Bool.false_and, Bool.false_eq_true, if_false]
  split
  next ho =>
    rcases h with h | h
    · simp only [State.isOwnTurn, s.advanceTurn_line, s.advanceTurn_member, beq_iff_eq] at ho
      exact absurd ho h
    · exact (h.of_line s.advanceTurn_only hr).ownTurnBegins
  next => rfl

/-- R7, R83: the wrap at a node with another address than 0 is the round boundary alone. -/
theorem State.beginTurnIdle_wrap (hw : s.line.turn = 31) (hn : s.member.config.nodeAddress ≠ 0) :
    s.beginTurnIdle = s.advanceTurn.roundBoundary := by
  have ho : s.advanceTurn.isOwnTurn = false := by
    rw [← Bool.not_eq_true, s.advanceTurn_own hw]
    exact hn
  simp [State.beginTurnIdle, hw, ho]

/-- R83, log 7: at node address 0 the wrap takes round boundary and own turn in one of the two orders. -/
theorem State.beginTurnIdle_wrap_zero (hw : s.line.turn = 31) (hn : s.member.config.nodeAddress = 0) :
    s.beginTurnIdle = s.advanceTurn.drawn.roundBoundary.ownTurnBegins
      ∨ s.beginTurnIdle = s.advanceTurn.drawn.ownTurnBegins.roundBoundary := by
  have ho := (s.advanceTurn_own hw).2 hn
  unfold State.beginTurnIdle
  simp only [hw, ho, beq_self_eq_true, Bool.and_true, if_true]
  split
  · exact .inl rfl
  · exact .inr rfl

/-- R12, R78: the first turn after sync, where it is not the own one or nothing is sent in it. -/
theorem State.firstTurnBegins_silent (h : s.member.config.nodeAddress ≠ 0 ∨ s.SendsNothing) :
    s.firstTurnBegins = s.startFirstTurn := by
  unfold State.firstTurnBegins
  simp only []
  split
  next ho =>
    rcases h with h | h
    · simp only [State.isOwnTurn, State.startFirstTurn, State.putLine_line, State.putLine_fields, beq_iff_eq] at ho
      exact absurd ho.symm h
    · exact (h.of_line s.startFirstTurn_only rfl).ownTurnBegins
  next => rfl

/-- What a turn begun at the wrap may change. -/
theorem State.advanceTurn_roundBoundary_only :
    s.OnlyChanges s.advanceTurn.roundBoundary
      [.line, .boxes, .refs, .completions, .store, .queues, .engines, .fault] :=
  (s.advanceTurn_only.mono (by decide)).seq (State.roundBoundary_only _) (by decide)

/-- R7: at the wrap the turn counter is 0 and the round number advances, in either order of R83. -/
theorem State.beginTurnIdle_wrap_turn (hw : s.line.turn = 31) :
    s.advanceTurn.drawn.roundBoundary.ownTurnBegins.line.turn = 0
      ∧ s.advanceTurn.drawn.roundBoundary.ownTurnBegins.line.round = s.line.round + 1
      ∧ s.advanceTurn.drawn.ownTurnBegins.roundBoundary.line.turn = 0
      ∧ s.advanceTurn.drawn.ownTurnBegins.roundBoundary.line.round = s.line.round + 1 := by
  obtain ⟨h1, h2, -⟩ := s.advanceTurn.drawn.roundBoundary.ownTurnBegins_turn
  obtain ⟨h3, h4, -⟩ := s.advanceTurn.drawn.ownTurnBegins_turn
  have hl : s.advanceTurn.drawn.line = s.advanceTurn.line := rfl
  rw [State.roundBoundary_line, hl, s.advanceTurn_line_wrap hw] at h1 h2
  rw [hl, s.advanceTurn_line_wrap hw] at h3 h4
  rw [State.roundBoundary_line]
  exact ⟨h1, h2, h3, h4⟩

/-- Settles O41, by where the turn begins: inside a round, at the wrap, at the wrap of node 0, after sync. -/
theorem turnBeginsAdvancesTheCounter : Obligations.TurnBeginsAdvancesTheCounter := by
  intro s hs ha silent hsil
  have hrow := execTurnBegins_eq s hs ha
  have hsend : silent → s.SendsNothing := hsil.1
  refine ⟨fun hd hw h => ?_, fun hd hw hn => ?_, fun hd hw hn => ?_, fun hd h => ?_⟩
  · rw [hrow, hd, if_neg (by decide), s.beginTurnIdle_inside hw (h.imp_right hsend)]
    exact ⟨_, rfl, s.advanceTurn_line_inside hw, s.advanceTurn_only⟩
  · rw [hrow, hd, if_neg (by decide), s.beginTurnIdle_wrap hw hn]
    exact ⟨_, rfl, (State.roundBoundary_line _).trans (s.advanceTurn_line_wrap hw), s.advanceTurn_roundBoundary_only⟩
  · obtain ⟨h1, h2, h3, h4⟩ := s.beginTurnIdle_wrap_turn hw
    rw [hrow, hd, if_neg (by decide)]
    rcases s.beginTurnIdle_wrap_zero hw hn with e | e
    · exact ⟨_, rfl, .inl e, by rw [e]; exact h1, by rw [e]; exact h2⟩
    · exact ⟨_, rfl, .inr e, by rw [e]; exact h3, by rw [e]; exact h4⟩
  · rw [hrow, hd, if_pos rfl, s.firstTurnBegins_silent (h.imp_right hsend)]
    exact ⟨_, rfl, rfl, s.startFirstTurn_only⟩

/-! ## A start bit -/

/-- R1, R12: the line unit as an activity begins. -/
theorem State.beginReception_line (chars : List RxChar) :
    (s.beginReception chars).line
      = { s.line with
          activity := .receiving,
          syncIdle := if s.member.lineState = .syncing then 0 else s.line.syncIdle,
          reception := some { phase := .opening, chars := chars,
                              activeAtStart := s.member.lineState == .active } } := by
  simp [State.beginReception]

theorem State.beginReception_only (chars : List RxChar) : s.OnlyChanges (s.beginReception chars) [.line] :=
  s.putLine_only _

/-- R1, R11, R26: a start bit on the sampled, idle line that is not taken as busy. -/
theorem execActivityBegins_eq (hs : s.member.lineState ≠ .offline) (hb : s.line.busyUntilIdle = false)
    (ha : s.line.activity = .idle) :
    exec .activityBegins s = .next (s.turnAtActivity.beginReception []) := by
  have hsamp : s.sampling = true := by simp [State.sampling, hs]
  simp [exec, execActivityBegins, hsamp, hb, ha]

/-- R1, R11, R26: off the line, or while it is taken as busy, a start bit is ignored. -/
theorem execActivityBegins_ignored (h : s.member.lineState = .offline ∨ s.line.busyUntilIdle = true) :
    exec .activityBegins s = .next s := by
  rcases h with h | h <;> simp [exec, execActivityBegins, State.sampling, h]

/-- R11, R25: on the line and not in SYNCING, turns are tracked. -/
theorem State.tracking_of_ne (ho : s.member.lineState ≠ .offline) (hs : s.member.lineState ≠ .syncing) :
    s.tracking = true := by
  rw [s.tracking_iff]
  cases h : s.member.lineState with
  | offline => exact absurd h ho
  | syncing => exact absurd h hs
  | active => exact .inl rfl
  | leaving => exact .inr rfl

/-- R6: no turn begins in SYNCING, or where neither a first turn is due nor an interframe space is in progress. -/
theorem State.turnAtActivity_none
    (h : s.member.lineState = .syncing ∨ s.line.firstTurnDue = false ∧ s.line.betweenTurns = false) :
    s.turnAtActivity = s := by
  rcases h with h | ⟨hd, hb⟩
  · simp [State.turnAtActivity, State.tracking, h]
  · simp [State.turnAtActivity, hd, hb]

/-- R12: a first turn that is due begins. -/
theorem State.turnAtActivity_first (ht : s.tracking = true) (hd : s.line.firstTurnDue = true) :
    s.turnAtActivity = s.startFirstTurn := by
  simp [State.turnAtActivity, ht, hd]

/-- R6: inside an interframe space the next turn begins. -/
theorem State.turnAtActivity_next (ht : s.tracking = true) (hd : s.line.firstTurnDue = false)
    (hb : s.line.betweenTurns = true) : s.turnAtActivity = s.beginTurnBusy := by
  simp [State.turnAtActivity, ht, hd, hb]

theorem State.beginTurnBusy_inside (hw : s.line.turn ≠ 31) : s.beginTurnBusy = s.advanceTurn := by
  rw [State.beginTurnBusy, if_neg (by simpa using hw)]

theorem State.beginTurnBusy_wrap (hw : s.line.turn = 31) : s.beginTurnBusy = s.advanceTurn.roundBoundary := by
  simp [State.beginTurnBusy, hw]

/-- The reception that begins after the turn `t`, which leaves the membership unit: its line unit. -/
theorem State.beginReception_line_of_member {s t : State} (hm : t.member = s.member) :
    (t.beginReception []).line
      = { t.line with
          activity := .receiving,
          syncIdle := if s.member.lineState = .syncing then 0 else t.line.syncIdle,
          reception := some { phase := .opening, chars := [], activeAtStart := s.member.lineState == .active } } := by
  rw [State.beginReception_line, hm]

/-- Settles O45, by the turn that begins at the start bit: none, the first after sync, the next, the next at the wrap. -/
theorem activityBeginsAReception : Obligations.ActivityBeginsAReception := by
  intro s
  refine ⟨execActivityBegins_ignored s, fun ho hb ha l hl => ?_⟩
  subst hl
  have hrow := execActivityBegins_eq s ho hb ha
  refine ⟨fun h => ?_, fun hs hd => ?_, fun hs hd hbt hw => ?_, fun hs hd hbt hw => ?_⟩
  · rw [hrow, s.turnAtActivity_none h]
    exact ⟨_, rfl, s.beginReception_line [], s.beginReception_only []⟩
  · rw [hrow, s.turnAtActivity_first (s.tracking_of_ne ho hs) hd]
    exact ⟨_, rfl, s.startFirstTurn.beginReception_line [],
      s.startFirstTurn_only.trans (State.beginReception_only _ [])⟩
  · rw [hrow, s.turnAtActivity_next (s.tracking_of_ne ho hs) hd hbt, s.beginTurnBusy_inside hw]
    refine ⟨_, rfl, ?_, s.advanceTurn_only.trans (State.beginReception_only _ [])⟩
    rw [State.beginReception_line_of_member s.advanceTurn_member, s.advanceTurn_line_inside hw]
  · rw [hrow, s.turnAtActivity_next (s.tracking_of_ne ho hs) hd hbt, s.beginTurnBusy_wrap hw]
    refine ⟨_, rfl, ?_, s.advanceTurn_roundBoundary_only.seq (State.beginReception_only _ []) (by decide)⟩
    rw [State.beginReception_line_of_member (s.advanceTurn.roundBoundary_member.trans s.advanceTurn_member),
      State.roundBoundary_line, s.advanceTurn_line_wrap hw]

end Sys2Proof.Machine
end

section
/-! O54: the N3's reply byte, the end of a line time, the end of the sync search and its first turn, and a withdrawal that
falls together with sync. -/

namespace Sys2Proof.Machine

variable (s : State)

/-! ## Sync by the sync idle count -/

theorem State.syncByIdle_member : s.syncByIdle.member = { s.member with lineState := .active } :=
  State.syncEstablished_member _

/-- R12, R44, R31: what sync by the sync idle count writes. -/
theorem State.syncByIdle_writes (h : s.member.lineState = .syncing) :
    s.syncByIdle.member.lineState = .active
      ∧ s.syncByIdle.line
          = { s.line with turn := 31, syncIdle := 1000, busyUntilIdle := false, firstTurnDue := true }
      ∧ s.syncByIdle.fault = { s.fault with spoiled := true }
      ∧ (∀ q, s.syncByIdle.engine q = { s.engine q with flags := { (s.engine q).flags with line := true } })
      ∧ s.OnlyChanges s.syncByIdle [.line, .lineState, .fault, .engines] :=
  ⟨by rw [s.syncByIdle_member], s.syncByIdle_line, State.syncEstablished_fault _,
    State.syncEstablished_engine (s.putLine _) h, s.syncByIdle_only.mono (by decide)⟩

/-- The row SYNC_IDLE_COUNT in SYNCING on the idle line. -/
theorem execSyncIdleCount_eq (hs : s.member.lineState = .syncing) (ha : s.line.activity = .idle) :
    exec .syncIdleCount s
      = .next (if s.syncByIdle.withdrawalWaits then s.syncByIdle else s.syncByIdle.firstTurnBegins) := by
  simp [exec, execSyncIdleCount, hs, ha]

/-- Log 27: whether a withdrawal waits next is read from the command at the front of the queue. -/
theorem State.withdrawalWaits_cons {c : Instr} {rest : List Instr} (h : s.pending = c :: rest) :
    s.withdrawalWaits = s.withdrawnBy c := by
  simp [State.withdrawalWaits, h]

theorem State.withdrawalWaits_false (h : ∀ c rest, s.pending = c :: rest → s.withdrawnBy c = false) :
    s.withdrawalWaits = false := by
  cases hp : s.pending with
  | nil => simp [State.withdrawalWaits, hp]
  | cons c rest => rw [s.withdrawalWaits_cons hp, h c rest hp]

theorem endsOffline_iff (a : Answer) : endsOffline a = true ↔ ∃ u, a = .next u ∧ u.member.lineState = .offline := by
  cases a with
  | next t => simp [endsOffline]
  | fault r => simp [endsOffline]
  | refused r => simp [endsOffline]

/-- R27, R28: a command that withdraws the last vote has the node OFFLINE. -/
theorem State.withdrawnBy_offline {c : Instr} (h : s.withdrawnBy c = true) :
    ∃ u, exec c s = .next u ∧ u.member.lineState = .offline := by
  unfold State.withdrawnBy at h
  split at h
  case h_4 => cases h
  all_goals exact (endsOffline_iff _).1 h

/-- R12: the first turn is turn 0, without a round boundary, and is no longer due. -/
theorem State.firstTurnBegins_turn :
    s.firstTurnBegins.line.turn = 0 ∧ s.firstTurnBegins.line.round = s.line.round
      ∧ s.firstTurnBegins.line.firstTurnDue = false := by
  unfold State.firstTurnBegins
  simp only []
  split
  · exact s.startFirstTurn.ownTurnBegins_turn
  · exact ⟨rfl, rfl, rfl⟩

theorem State.firstTurnBegins_member : s.firstTurnBegins.member = s.member :=
  s.firstTurnBegins_only.member (by decide) (by decide) (by decide)

/-! ## The withdrawal of the last vote -/

/-- R22: without the vote of port `p`, the only one, the participation set is empty. -/
theorem votesEmpty_set_none {v : Vector Vote 3} {p : Port} (h : ∀ q : Port, q ≠ p → v[q] = .none) :
    votesEmpty (v.set p .none) = true := by
  unfold votesEmpty
  rw [Vector.all_eq_true]
  intro i hi
  rw [Vector.getElem_set]
  split
  · rfl
  next hne => simpa using h ⟨i, hi⟩ (fun e => hne (congrArg Fin.val e.symm))

/-- R22, R24: an empty participation set has no mode. -/
theorem modeOf_of_votesEmpty {v : Vector Vote 3} (h : votesEmpty v = true) : modeOf v = none := by
  unfold votesEmpty at h
  simp only [Vector.all_eq_true, beq_iff_eq] at h
  have hany : ∀ x : Vote, x ≠ .none → v.any (· == x) = false := by
    intro x hx
    rw [Vector.any_eq_false]
    intro i hi
    rw [h i hi, beq_iff_eq]
    exact Ne.symm hx
  simp [modeOf, hany]

/-- R23: VOTE with the value 0 at a port whose vote is set gives new votes. -/
theorem voteBody_withdraw (p : Port) (bytes : List Byte) (h : s.vote p ≠ .none) :
    (voteBody p (0 :: bytes) s).1 = (s.applyVotes (s.member.votes.set p .none)).finish := by
  have hv : (Vote.none == s.vote p) = false := by simpa using Ne.symm h
  have h0 : Vote.ofByte 0 = some .none := by decide
  simp only [voteBody, h0, hv, Bool.false_eq_true, if_false]

/-- R25, R28: without an own frame an empty participation set leads to OFFLINE. -/
theorem nextLineState_empty {l : LineState} (h : l = .syncing ∨ l = .active) : nextLineState l true false = .offline := by
  rcases h with rfl | rfl <;> rfl

/-- R27, R28: the only vote withdrawn in SYNCING or ACTIVE, with no own frame: the node goes OFFLINE. -/
theorem execVote_withdraws_last (p : Port) (bytes : List Byte) (hin : s.InTransaction p) (hown : s.line.own = none)
    (hst : s.member.lineState = .syncing ∨ s.member.lineState = .active) (hp : s.vote p ≠ .none)
    (hq : ∀ q, q ≠ p → s.vote q = .none) :
    ∃ u, execVote p (0 :: bytes) s = .next u ∧ u.member.lineState = .offline ∧ u.mode = none := by
  refine ⟨_, rfl, ?_⟩
  have he : votesEmpty (s.member.votes.set p .none) = true := votesEmpty_set_none hq
  have hfly : (s.closeTransaction p).inFlight = false := by simp [State.inFlight, hown]
  have hbody := voteBody_withdraw (s.closeTransaction p) p bytes hp
  have hvotes : (s.closeTransaction p).member = s.member := rfl
  rw [hvotes] at hbody
  have hm : (s.takeCommand p .vote (voteBody p (0 :: bytes))).member
      = { s.member with votes := s.member.votes.set p .none, lineState := .offline } := by
    rw [State.takeCommand_eq s p _ _ hin, (State.report_fields _ _ _).2.1, hbody,
      (Upd.finish_only _).member (by decide) (by decide) (by decide), State.applyVotes_member, he, hfly, hvotes,
      nextLineState_empty hst]
  exact ⟨by rw [hm], by rw [State.mode, hm]; exact modeOf_of_votesEmpty he⟩

/-- Outside SYNCING the sync idle count establishes nothing. -/
theorem execSyncIdleCount_ignored (h : s.member.lineState ≠ .syncing) : exec .syncIdleCount s = .next s := by
  simp [exec, execSyncIdleCount, h]

/-- A change of flags alone leaves the transaction of a port. -/
theorem State.InTransaction.of_flags {s t : State} {p : Port} (h : s.InTransaction p) {f : Attention}
    (he : t.engine p = { s.engine p with flags := f }) : t.InTransaction p := by
  unfold State.InTransaction
  rw [he]
  exact h

/-! ## The rows -/

theorem execReplyByteStart_eq (c : ReplyCode) (ha : s.line.activity = .receiving) (hr : s.line.reply = some c) :
    exec .replyByteStart s
      = .next (s.putLine { s.line with activity := .transmitting, reply := none, den := true, txd := [c.byte] }) := by
  simp [exec, execReplyByteStart, ha, hr]

theorem execReplyByteEnd_eq (ha : s.line.activity = .transmitting) (ho : s.line.own = none) :
    exec .replyByteEnd s = .next (s.putLine { s.line with activity := .receiving, den := false, txd := [] }) := by
  simp [exec, execReplyByteEnd, ha, State.inFlight, ho]

theorem RxPhase.mayEnd_iff (ph : RxPhase) : ph.mayEnd = true ↔ ph = .ended ∨ ph = .foreign ∨ ph = .abandoned := by
  cases ph <;> decide

theorem execLineTimeEnd_eq (rx : Reception) (h : s.Receives rx)
    (hp : rx.phase = .ended ∨ rx.phase = .foreign ∨ rx.phase = .abandoned) (hr : s.line.reply = none) :
    exec .lineTimeEnd s = .next s.endLineTime := by
  simp [exec, execLineTimeEnd, h.1, h.2, hr, (rx.phase.mayEnd_iff).2 hp]

theorem execSyncEntryIdleSeen_eq (hs : s.member.lineState = .syncing) (hb : s.line.busyUntilIdle = true) :
    exec .syncEntryIdleSeen s = .next (s.putLine { s.line with busyUntilIdle := false, syncIdle := 10 }) := by
  simp [exec, execSyncEntryIdleSeen, hs, hb]

/-- R12: without a withdrawal that waits, the first turn begins at once, as TURN_BEGINS has it after sync. -/
theorem execSyncIdleCount_first_turn (hs : s.member.lineState = .syncing) (ha : s.line.activity = .idle)
    (h : ∀ c rest, s.pending = c :: rest → s.syncByIdle.withdrawnBy c = false) :
    exec .syncIdleCount s = .next s.syncByIdle.firstTurnBegins
      ∧ exec .turnBegins s.syncByIdle = .next s.syncByIdle.firstTurnBegins := by
  have hpend : s.syncByIdle.pending = s.pending := s.syncByIdle_only.1
  have hw := s.syncByIdle.withdrawalWaits_false (by rw [hpend]; exact h)
  constructor
  · rw [execSyncIdleCount_eq s hs ha, hw, if_neg (by decide)]
  · rw [execTurnBegins_eq _ (.inl (by rw [s.syncByIdle_member])) (by rw [s.syncByIdle_line]; exact ha), s.syncByIdle_line,
      if_pos rfl]

/-- Settles O54, row by row. -/
theorem replyLineTimeAndSyncEvents : Obligations.ReplyLineTimeAndSyncEvents := by
  intro s
  refine ⟨fun c ha hr => ?_, fun ha ho => ?_, fun rx h hp hr => ?_, fun hs hb => ?_, fun hs ha m hm => ?_⟩
  · refine ⟨_, execReplyByteStart_eq s c ha hr, ?_, s.putLine_only _⟩
    cases c <;> rfl
  · exact ⟨_, execReplyByteEnd_eq s ha ho, rfl, s.putLine_only _⟩
  · exact ⟨_, execLineTimeEnd_eq s rx h hp hr, rfl, s.endLineTime_only⟩
  · exact ⟨_, execSyncEntryIdleSeen_eq s hs hb, rfl, s.putLine_only _⟩
  · subst hm
    obtain ⟨hact, hline, hfault, heng, honly⟩ := s.syncByIdle_writes hs
    refine ⟨⟨hact, hline, hfault, fun q => by rw [heng], honly⟩, fun h => ?_, fun c rest hp hw => ?_,
      fun p bytes hin ho hv hq => ?_⟩
    · obtain ⟨hrow, hturn⟩ := execSyncIdleCount_first_turn s hs ha h
      obtain ⟨ht, hr, hd⟩ := s.syncByIdle.firstTurnBegins_turn
      refine ⟨_, hrow, hturn, by rw [State.firstTurnBegins_member]; exact hact, ht, by rw [hr, hline], hd, fun hn => ?_⟩
      rw [s.syncByIdle.firstTurnBegins_silent (.inl (by rw [s.syncByIdle_member]; exact hn))]
      exact ⟨rfl, State.startFirstTurn_only _⟩
    · have hpend : s.syncByIdle.pending = c :: rest := by rw [s.syncByIdle_only.1, hp]
      rw [execSyncIdleCount_eq s hs ha, s.syncByIdle.withdrawalWaits_cons hpend, hw, if_pos rfl]
      exact ⟨rfl, s.syncByIdle.withdrawnBy_offline hw⟩
    · have hvote : ∀ q, s.syncByIdle.vote q = s.vote q := fun q => by
        simp only [State.vote, s.syncByIdle_member]
      constructor
      · obtain ⟨u, hu, hoff, -⟩ := execVote_withdraws_last s.syncByIdle p bytes (hin.of_flags (heng p))
          (by rw [hline]; exact ho) (.inr hact) (by rw [hvote]; exact hv) (fun q h => by rw [hvote]; exact hq q h)
        exact (endsOffline_iff _).2 ⟨u, hu, hoff⟩
      · obtain ⟨u, hu, hoff, hmode⟩ := execVote_withdraws_last s p bytes hin ho (.inl hs) hv hq
        exact ⟨u, hu, hoff, hmode, execSyncIdleCount_ignored u (by rw [hoff]; decide)⟩

end Sys2Proof.Machine
end

section
/-! O53: the layout of a frame (R2, R3, R169), and the four checks of R5 on a received activity. Bit fields are read as
numbers: each field lemma says what a byte is as a number, and equality of words is equality of numbers. -/

namespace Sys2Proof.Machine

/-! ## Words as numbers -/

theorem toNat_append_eq {m n : Nat} (x : BitVec m) (y : BitVec n) : (x ++ y).toNat = x.toNat * 2 ^ n + y.toNat := by
  rw [BitVec.toNat_append, Nat.shiftLeft_eq, Nat.mul_comm, ← Nat.two_pow_add_eq_or_of_lt y.isLt]

theorem toNat_extract_eq {w : Nat} (x : BitVec w) (k n : Nat) :
    (x.extractLsb' k n).toNat = x.toNat / 2 ^ k % 2 ^ n := by
  rw [BitVec.extractLsb'_toNat, Nat.shiftRight_eq_div_pow]

theorem getLsbD_eq_decide {w : Nat} (x : BitVec w) (i : Nat) : x.getLsbD i = decide (x.toNat / 2 ^ i % 2 = 1) := by
  rw [← BitVec.testBit_toNat, Nat.testBit_eq_decide_div_mod_eq]

/-! ## Check words and header bytes -/

/-- R3: the two characters of a check word, as a number. -/
theorem checkChars_eq (w : BitVec 16) :
    checkChars w = [w.extractLsb' 8 8, w.extractLsb' 0 8]
      ∧ (w.extractLsb' 8 8).toNat * 256 + (w.extractLsb' 0 8).toNat = w.toNat := by
  have hw : w.toNat < 65536 := w.isLt
  refine ⟨rfl, ?_⟩
  simp only [toNat_extract_eq]
  omega

/-- R3: two characters are those of a check word exactly if they spell its number. -/
theorem eq_checkChars_iff (hi lo : Byte) (w : BitVec 16) :
    [hi, lo] = checkChars w ↔ hi.toNat * 256 + lo.toNat = w.toNat := by
  obtain ⟨he, hn⟩ := checkChars_eq w
  rw [he]
  constructor
  · intro h
    simp only [List.cons.injEq, and_true] at h
    rw [h.1, h.2, hn]
  · intro h
    have h1 : lo.toNat < 256 := lo.isLt
    have h2 : (w.extractLsb' 0 8).toNat < 256 := (w.extractLsb' 0 8).isLt
    rw [BitVec.eq_of_toNat_eq (x := hi) (y := w.extractLsb' 8 8) (by omega),
      BitVec.eq_of_toNat_eq (x := lo) (y := w.extractLsb' 0 8) (by omega)]

/-- The kind bit of a frame (R169). -/
def FrameBody.isGroup : FrameBody → Bool
  | .addressed _ _ _ _ => false
  | .group _ => true

/-- Header byte 1 (R169). -/
def FrameBody.header1 : FrameBody → Byte
  | .addressed dest _ seqBit fresh => dest ++ (BitVec.ofBool seqBit ++ BitVec.ofBool fresh ++ 0#1)
  | .group gid => gid.extractLsb' 4 8

/-- Header byte 2 (R169). -/
def FrameBody.header2 : FrameBody → Byte
  | .addressed _ chan _ _ => BitVec.ofNat 4 chan.val ++ 0#4
  | .group gid => gid.extractLsb' 0 4 ++ 0#4

theorem headerBytes_eq (sender : NodeAddr) (body : FrameBody) (n : Nat) :
    headerBytes sender body n = [header0 sender body.isGroup, body.header1, body.header2, BitVec.ofNat 8 n] := by
  cases body <;> rfl

theorem header0_toNat (sender : NodeAddr) (g : Bool) :
    (header0 sender g).toNat = 8 * sender.toNat + if g = true then 4 else 0 := by
  rw [header0, toNat_append_eq]
  cases g <;> simp <;> omega

theorem header1_addressed_toNat (d : NodeAddr) (c : ChannelNo) (b f : Bool) :
    (FrameBody.addressed d c b f).header1.toNat
      = 8 * d.toNat + (if b = true then 4 else 0) + if f = true then 2 else 0 := by
  rw [FrameBody.header1, toNat_append_eq, toNat_append_eq, toNat_append_eq]
  cases b <;> cases f <;> simp <;> omega

theorem header2_addressed_toNat (d : NodeAddr) (c : ChannelNo) (b f : Bool) :
    (FrameBody.addressed d c b f).header2.toNat = 16 * c.val := by
  have hc : c.val < 16 := c.isLt
  rw [FrameBody.header2, toNat_append_eq, BitVec.toNat_ofNat]
  simp
  omega

theorem header1_group_toNat (g : GroupId) : (FrameBody.group g).header1.toNat = g.toNat / 16 := by
  have hg : g.toNat < 4096 := g.isLt
  rw [FrameBody.header1, toNat_extract_eq]
  omega

theorem header2_group_toNat (g : GroupId) : (FrameBody.group g).header2.toNat = 16 * (g.toNat % 16) := by
  rw [FrameBody.header2, toNat_append_eq, toNat_extract_eq]
  simp
  omega

/-! ## Reading the header bytes back -/

theorem senderOf_toNat (h0 : Byte) : (senderOf h0).toNat = h0.toNat / 8 := by
  have h : h0.toNat < 256 := h0.isLt
  rw [senderOf, toNat_extract_eq]
  omega

theorem senderOf_header0 (sender : NodeAddr) (g : Bool) : senderOf (header0 sender g) = sender := by
  refine BitVec.eq_of_toNat_eq ?_
  rw [senderOf_toNat, header0_toNat]
  cases g <;> simp
  omega

theorem groupBit_header0 (sender : NodeAddr) (g : Bool) : groupBit (header0 sender g) = g := by
  rw [groupBit, getLsbD_eq_decide, header0_toNat]
  cases g <;> simp <;> omega

/-- R169: kind, destination, channel, sequence bit and fresh flag, or group id, are read as they were written. -/
theorem Classified.body_of_headers (v : Classified) (sender : NodeAddr) (body : FrameBody)
    (h0 : v.h0 = header0 sender body.isGroup) (h1 : v.h1 = body.header1) (h2 : v.h2 = body.header2) :
    v.body = body := by
  unfold Classified.body
  rw [h0, h1, h2, groupBit_header0]
  cases body with
  | addressed d c b f =>
    have e1 := header1_addressed_toNat d c b f
    have e2 := header2_addressed_toNat d c b f
    have hd : d.toNat < 32 := d.isLt
    have hc : c.val < 16 := c.isLt
    simp only [FrameBody.isGroup, Bool.false_eq_true, if_false, FrameBody.addressed.injEq]
    refine ⟨BitVec.eq_of_toNat_eq ?_, Fin.ext ?_, ?_, ?_⟩
    · rw [toNat_extract_eq, e1]
      cases b <;> cases f <;> simp <;> omega
    · rw [BitVec.val_toFin, toNat_extract_eq, e2]
      omega
    · rw [getLsbD_eq_decide, e1]
      cases b <;> cases f <;> simp <;> omega
    · rw [getLsbD_eq_decide, e1]
      cases b <;> cases f <;> simp <;> omega
  | group g =>
    have hg : g.toNat < 4096 := g.isLt
    simp only [FrameBody.isGroup, if_true, FrameBody.group.injEq]
    refine BitVec.eq_of_toNat_eq ?_
    rw [toNat_append_eq, toNat_extract_eq, header1_group_toNat, header2_group_toNat]
    omega

/-! ## The checks of R5, as numbers -/

/-- R5, check 1: what makes an activity a disturbance. -/
theorem isDisturbance_iff (pre h0 : RxChar) :
    isDisturbance pre h0 = true
      ↔ pre.value ≠ 0x55 ∨ pre.framingError = true ∨ h0.value.toNat % 4 ≠ 0 ∨ h0.framingError = true := by
  have hz : h0.value.extractLsb' 0 2 = 0 ↔ h0.value.toNat % 4 = 0 := by
    rw [← BitVec.toNat_inj, toNat_extract_eq]
    simp
  simp only [isDisturbance, preamble, Bool.or_eq_true, bne_iff_ne, ne_eq, hz, or_assoc]

theorem headerFormatBad_one (g : Bool) (b : Byte) :
    headerFormatBad g 1 b = true ↔ g = false ∧ b.toNat % 2 = 1 := by
  have h : b.getLsbD 0 = true ↔ b.toNat % 2 = 1 := by rw [getLsbD_eq_decide]; simp
  simp only [headerFormatBad, Bool.and_eq_true, Bool.not_eq_true', h]

theorem headerFormatBad_two (g : Bool) (b : Byte) : headerFormatBad g 2 b = true ↔ b.toNat % 16 ≠ 0 := by
  have hz : b.extractLsb' 0 4 = 0 ↔ b.toNat % 16 = 0 := by
    rw [← BitVec.toNat_inj, toNat_extract_eq]
    simp
  simp only [headerFormatBad, bne_iff_ne, ne_eq, hz]

theorem headerFormatBad_three (g : Bool) (b : Byte) : headerFormatBad g 3 b = true ↔ 64 < b.toNat := by
  simp [headerFormatBad]

/-- R5, check 2 at the next header byte. -/
theorem headerSettles_bad {g : Bool} {n : Nat} {c : RxChar} (cs : List RxChar) (h : headerFormatBad g n c.value = true) :
    headerSettles g n (c :: cs) = some .formatError := by
  simp [headerSettles, h]

/-- R5, check 3 at the next header byte, after check 2 (log 13). -/
theorem headerSettles_framing {g : Bool} {n : Nat} {c : RxChar} (cs : List RxChar)
    (h : ¬ headerFormatBad g n c.value = true) (hf : c.framingError = true) :
    headerSettles g n (c :: cs) = some .checkError := by
  simp [headerSettles, h, hf]

/-- A sound header byte settles nothing. -/
theorem headerSettles_next {g : Bool} {n : Nat} {c : RxChar} (cs : List RxChar)
    (h : ¬ headerFormatBad g n c.value = true) (hf : c.framingError = false) :
    headerSettles g n (c :: cs) = headerSettles g (n + 1) cs := by
  simp [headerSettles, h, hf]

/-! ## Classification, stage by stage -/

theorem classify_disturbance {pre h0 : RxChar} (rest : List RxChar) (h : isDisturbance pre h0 = true) :
    (classify (pre :: h0 :: rest)).Is .formatError false false := by
  simp [classify, h, Classified.noHeader, Classified.Is]

/-- R5: a header byte that settles the frame. -/
theorem classify_settled {pre h0 : RxChar} {rest : List RxChar} {cls : RxClass} (h : isDisturbance pre h0 = false)
    (hs : headerSettles (groupBit h0.value) 1 (rest.take 3) = some cls) :
    (classify (pre :: h0 :: rest)).Is cls true false := by
  simp [classify, h, hs, Classified.Is]

/-- R5, check 3: quiet before the last header byte. -/
theorem classify_cut {pre h0 : RxChar} {rest : List RxChar} (h : isDisturbance pre h0 = false)
    (hs : headerSettles (groupBit h0.value) 1 (rest.take 3) = none) (hl : rest.length < 3) :
    (classify (pre :: h0 :: rest)).Is .checkError true false := by
  match rest with
  | [] | [_] | [_, _] => simp_all [classify, Classified.Is]
  | _ :: _ :: _ :: _ => simp at hl; omega

/-- R5: a sound header leaves the frame to checks 3 and 4. -/
theorem classify_whole {pre h0 h1 h2 len : RxChar} (tail : List RxChar) (h : isDisturbance pre h0 = false)
    (hs : headerSettles (groupBit h0.value) 1 [h1, h2, len] = none) :
    classify (pre :: h0 :: h1 :: h2 :: len :: tail) = classifyTail h0 h1 h2 len.value tail := by
  simp [classify, h, hs]

/-- R5, check 3: a frame that quiet, or a framing error, keeps from its last check byte. -/
theorem classifyTail_cut (h0 h1 h2 : RxChar) (len : Byte) (tail : List RxChar)
    (h : tail.length < len.toNat + 2 ∨ ∃ c ∈ tail.take (len.toNat + 2), c.framingError = true) :
    (classifyTail h0 h1 h2 len tail).Is .checkError true false := by
  have hc : ((tail.take (len.toNat + 2)).any (·.framingError)
      || decide ((tail.take (len.toNat + 2)).length < len.toNat + 2)) = true := by
    rw [Bool.or_eq_true, List.any_eq_true, decide_eq_true_eq, List.length_take]
    rcases h with h | h
    · exact .inr (by omega)
    · exact .inl h
  simp only [classifyTail, hc, if_true, Classified.Is, and_self]

/-- R5, check 4: a frame of which every character came. -/
theorem classifyTail_whole (h0 h1 h2 : RxChar) (len : Byte) (payload : List RxChar) (hi lo : RxChar)
    (more : List RxChar) (hl : payload.length = len.toNat) (hf : ∀ c ∈ payload ++ [hi, lo], c.framingError = false) :
    classifyTail h0 h1 h2 len (payload ++ hi :: lo :: more)
      = { cls := if hi.value.toNat * 256 + lo.value.toNat
              = (checkWord ([h0.value, h1.value, h2.value, len] ++ payload.map (·.value))).toNat
            then .good else .checkError,
          frameStart := true, atCheckByte := true, h0 := h0.value, h1 := h1.value, h2 := h2.value,
          payload := payload.map (·.value) } := by
  have hn : (payload ++ hi :: lo :: more).take (len.toNat + 2) = payload ++ [hi, lo] := by
    rw [← hl, List.take_length_add_append]
    rfl
  have hp : (payload ++ hi :: lo :: more).take len.toNat = payload := by rw [← hl, List.take_left]
  have hd : (payload ++ [hi, lo]).drop len.toNat = [hi, lo] := by rw [← hl, List.drop_left]
  have ha : (payload ++ [hi, lo]).any (·.framingError) = false := by
    rw [List.any_eq_false]
    intro c hc
    simp [hf c hc]
  have hlen : ¬ (payload ++ [hi, lo]).length < len.toNat + 2 := by simp [hl]
  have hcheck : (valuesOf [hi, lo]
      == checkChars (checkWord ([h0.value, h1.value, h2.value, len] ++ payload.map (·.value)))) = true
      ↔ hi.value.toNat * 256 + lo.value.toNat
          = (checkWord ([h0.value, h1.value, h2.value, len] ++ payload.map (·.value))).toNat := by
    rw [beq_iff_eq]
    exact eq_checkChars_iff hi.value lo.value _
  unfold classifyTail
  simp only [hn, hp, hd, ha, hlen, decide_false, Bool.or_self, Bool.false_eq_true, if_false]
  simp only [valuesOf] at hcheck ⊢
  simp only [hcheck]

/-! ## Frames that the N3 builds -/

/-- A byte received clean. -/
def cleanChar (b : Byte) : RxChar := { value := b, framingError := false }

/-- R2, R3, R13, R169: the characters of an own frame, in order. -/
theorem OwnFrame.chars_eq (f : OwnFrame) :
    f.chars = [0x55, header0 f.sender f.body.isGroup, f.body.header1, f.body.header2, BitVec.ofNat 8 f.payload.length]
      ++ f.payload ++ checkChars (checkWord f.checked) := by
  simp [OwnFrame.chars, OwnFrame.checked, headerBytes_eq, preamble]

theorem OwnFrame.checked_eq (f : OwnFrame) :
    f.checked = [header0 f.sender f.body.isGroup, f.body.header1, f.body.header2, BitVec.ofNat 8 f.payload.length]
      ++ f.payload := by
  rw [OwnFrame.checked, headerBytes_eq]

theorem isDisturbance_own (sender : NodeAddr) (g : Bool) :
    isDisturbance (cleanChar 0x55) (cleanChar (header0 sender g)) = false := by
  have h : (header0 sender g).toNat % 4 = 0 := by
    rw [header0_toNat]
    cases g <;> simp <;> omega
  rw [← Bool.not_eq_true, isDisturbance_iff]
  simp [cleanChar, h]

/-- R5, R169: no header byte of an own frame settles it. -/
theorem headerSettles_own (sender : NodeAddr) (body : FrameBody) (n : Nat) (hn : n ≤ 64) :
    headerSettles (groupBit (header0 sender body.isGroup)) 1
      [cleanChar body.header1, cleanChar body.header2, cleanChar (BitVec.ofNat 8 n)] = none := by
  have h1 : ¬ headerFormatBad body.isGroup 1 body.header1 = true := by
    rw [headerFormatBad_one]
    cases body with
    | group g => simp [FrameBody.isGroup]
    | addressed d c b f =>
      rw [header1_addressed_toNat]
      cases b <;> cases f <;> simp <;> omega
  have h2 : ¬ headerFormatBad body.isGroup 2 body.header2 = true := by
    rw [headerFormatBad_two]
    cases body with
    | group g => rw [header2_group_toNat]; omega
    | addressed d c b f => rw [header2_addressed_toNat]; omega
  have h3 : ¬ headerFormatBad body.isGroup 3 (BitVec.ofNat 8 n) = true := by
    rw [headerFormatBad_three, BitVec.toNat_ofNat]
    omega
  rw [groupBit_header0, headerSettles_next _ h1 rfl, headerSettles_next _ h2 rfl, headerSettles_next _ h3 rfl]
  rfl

/-- R2, R5: a frame that the N3 built, received clean, is GOOD with all its fields. -/
theorem classify_own (f : OwnFrame) (hp : f.payload.length ≤ 64) :
    classify (f.chars.map cleanChar)
      = { cls := .good, frameStart := true, atCheckByte := true, h0 := header0 f.sender f.body.isGroup,
          h1 := f.body.header1, h2 := f.body.header2, payload := f.payload } := by
  obtain ⟨hcc, hw⟩ := checkChars_eq (checkWord f.checked)
  have hlen : (f.payload.map cleanChar).length = (cleanChar (BitVec.ofNat 8 f.payload.length)).value.toNat := by
    rw [List.length_map, cleanChar, BitVec.toNat_ofNat]
    omega
  have hchars : f.chars.map cleanChar
      = cleanChar 0x55 :: cleanChar (header0 f.sender f.body.isGroup) :: cleanChar f.body.header1
        :: cleanChar f.body.header2 :: cleanChar (BitVec.ofNat 8 f.payload.length)
        :: (f.payload.map cleanChar ++ cleanChar ((checkWord f.checked).extractLsb' 8 8)
          :: cleanChar ((checkWord f.checked).extractLsb' 0 8) :: []) := by
    rw [f.chars_eq, hcc]
    simp
  have hval : (f.payload.map cleanChar).map (·.value) = f.payload := by
    rw [List.map_map]
    exact List.map_id' _
  have hclean : ∀ c ∈ f.payload.map cleanChar ++ [cleanChar ((checkWord f.checked).extractLsb' 8 8),
      cleanChar ((checkWord f.checked).extractLsb' 0 8)], c.framingError = false := by
    intro c hc
    rw [← List.map_singleton, ← List.map_cons, ← List.map_append, List.mem_map] at hc
    obtain ⟨b, -, rfl⟩ := hc
    rfl
  rw [hchars, classify_whole _ (isDisturbance_own _ _) (headerSettles_own _ _ _ hp),
    classifyTail_whole _ _ _ _ _ _ _ _ hlen hclean, hval]
  rw [f.checked_eq] at hw
  simp only [cleanChar, f.checked_eq, hw, if_true]

/-- R13, R169: the bytes of an own frame, the fields of its header in their places. -/
theorem OwnFrame.layout (f : OwnFrame) (hp : f.payload.length ≤ 64) :
    ∃ h0 h1 h2 len hi lo : Byte,
      f.chars = [0x55, h0, h1, h2, len] ++ f.payload ++ [hi, lo]
      ∧ len.toNat = f.payload.length
      ∧ hi.toNat * 256 + lo.toNat = (checkWord ([h0, h1, h2, len] ++ f.payload)).toNat
      ∧ (∀ d c seqBit fresh, f.body = .addressed d c seqBit fresh →
          h0.toNat = 8 * f.sender.toNat
          ∧ h1.toNat = 8 * d.toNat + (if seqBit = true then 4 else 0) + (if fresh = true then 2 else 0)
          ∧ h2.toNat = 16 * c.val)
      ∧ ∀ g, f.body = .group g →
          h0.toNat = 8 * f.sender.toNat + 4 ∧ h1.toNat = g.toNat / 16 ∧ h2.toNat = 16 * (g.toNat % 16) := by
  obtain ⟨hcc, hw⟩ := checkChars_eq (checkWord f.checked)
  refine ⟨_, _, _, _, _, _, hcc ▸ f.chars_eq, ?_, ?_, fun d c b fr hb => ?_, fun g hb => ?_⟩
  · rw [BitVec.toNat_ofNat]
    omega
  · rw [hw, f.checked_eq]
  · rw [hb]
    exact ⟨header0_toNat _ _, header1_addressed_toNat d c b fr, header2_addressed_toNat d c b fr⟩
  · rw [hb]
    exact ⟨header0_toNat _ _, header1_group_toNat g, header2_group_toNat g⟩

/-! ## The four checks, byte by byte -/

/-- R5: an activity that its first character makes a disturbance. -/
theorem classify_bad_preamble (pre : RxChar) (rest : List RxChar) (h : pre.value ≠ 0x55 ∨ pre.framingError = true) :
    (classify (pre :: rest)).Is .formatError false false := by
  cases rest with
  | nil =>
    have hc : (pre.value != preamble || pre.framingError) = true := by simpa [preamble] using h
    simp [classify, hc, Classified.noHeader, Classified.Is]
  | cons h0 rest =>
    exact classify_disturbance rest ((isDisturbance_iff pre h0).2 (h.imp_right .inl))

/-- R5, checks 3 and 4: a frame with a sound header, by the characters after it. -/
theorem classify_after_header {pre h0 h1 h2 len : RxChar} (tail : List RxChar) (hd : isDisturbance pre h0 = false)
    (hs : headerSettles (groupBit h0.value) 1 [h1, h2, len] = none) :
    (tail.length < len.value.toNat + 2 ∨ (∃ c ∈ tail.take (len.value.toNat + 2), c.framingError = true) →
        (classify (pre :: h0 :: h1 :: h2 :: len :: tail)).Is .checkError true false)
      ∧ ∀ (payload : List RxChar) (hi lo : RxChar) (more : List RxChar),
          tail = payload ++ hi :: lo :: more → payload.length = len.value.toNat →
          (∀ c ∈ payload ++ [hi, lo], c.framingError = false) →
          ∀ w, w = checkWord ([h0.value, h1.value, h2.value, len.value] ++ payload.map (·.value)) →
          (hi.value.toNat * 256 + lo.value.toNat = w.toNat →
            (classify (pre :: h0 :: h1 :: h2 :: len :: tail)).Is .good true true
              ∧ (classify (pre :: h0 :: h1 :: h2 :: len :: tail)).payload = payload.map (·.value))
          ∧ (hi.value.toNat * 256 + lo.value.toNat ≠ w.toNat →
            (classify (pre :: h0 :: h1 :: h2 :: len :: tail)).Is .checkError true true) := by
  rw [classify_whole tail hd hs]
  refine ⟨classifyTail_cut h0 h1 h2 len.value tail, fun payload hi lo more ht hl hf w hw => ?_⟩
  subst ht hw
  rw [classifyTail_whole h0 h1 h2 len.value payload hi lo more hl hf]
  constructor
  · intro h
    simp only [h, if_true, Classified.Is, and_self]
  · intro h
    simp only [h, if_false, Classified.Is, and_self]

/-- Settles O53: the layout and the reading back of an own frame, then the checks of R5 in the order of arrival. -/
theorem framesAreBuiltAndClassified : Obligations.FramesAreBuiltAndClassified := by
  refine ⟨by decide +kernel, fun f hp => ⟨f.layout hp, fun v hv => ?_⟩, ⟨rfl, rfl, rfl⟩, classify_bad_preamble,
    fun pre hpre hprf => ⟨?_, fun h0 rest h => ?_, fun h0 h0z h0f => ?_⟩⟩
  · have hv' : v = _ := hv.trans (classify_own f hp)
    rw [hv']
    exact ⟨⟨rfl, rfl, rfl⟩, senderOf_header0 _ _, Classified.body_of_headers _ f.sender f.body rfl rfl rfl, rfl⟩
  · simp [classify, hpre, hprf, preamble, Classified.noHeader, Classified.Is]
  · exact classify_disturbance rest ((isDisturbance_iff pre h0).2 (.inr (.inr h)))
  have hd : isDisturbance pre h0 = false := by
    rw [← Bool.not_eq_true, isDisturbance_iff]
    simp [hpre, hprf, h0z, h0f]
  refine ⟨classify_cut hd rfl (by decide), fun h1 bad1 hbad => ?_⟩
  have hb1 : headerFormatBad (groupBit h0.value) 1 h1.value = true ↔ bad1 := by
    rw [headerFormatBad_one, hbad]
    rfl
  refine ⟨fun rest hb => classify_settled hd (headerSettles_bad _ (hb1.2 hb)), fun rest hb hf =>
    classify_settled hd (headerSettles_framing _ (hb1.not.2 hb) hf), fun hb h1f => ?_⟩
  have next1 := fun cs => headerSettles_next cs (hb1.not.2 hb) h1f
  refine ⟨classify_cut hd (next1 []) (by simp), fun h2 rest hz => classify_settled hd ?_,
    fun h2 rest hz hf => classify_settled hd ?_, fun h2 hz h2f => ?_⟩
  · exact (next1 _).trans (headerSettles_bad _ ((headerFormatBad_two _ _).2 hz))
  · exact (next1 _).trans (headerSettles_framing _ (by rw [headerFormatBad_two]; exact not_not.2 hz) hf)
  have next2 := fun cs => (next1 (h2 :: cs)).trans
    (headerSettles_next cs (by rw [headerFormatBad_two]; exact not_not.2 hz) h2f)
  refine ⟨classify_cut hd (next2 []) (by simp), fun len tail v hv => ?_⟩
  subst hv
  refine ⟨fun hl => classify_settled hd ((next2 _).trans (headerSettles_bad _ ((headerFormatBad_three _ _).2 hl))),
    fun hl hf => classify_settled hd ((next2 _).trans (headerSettles_framing _ ?_ hf)), fun hl hf => ?_⟩
  · rw [headerFormatBad_three]; omega
  · exact classify_after_header tail hd
      ((next2 _).trans (headerSettles_next [] (by rw [headerFormatBad_three]; omega) hf))

end Sys2Proof.Machine
end

section
/-! What a local pass keeps (R84): the reception slot, the LINE flags, and every mailbox that it does not decide; and
what follows for a mailbox that has been settled. -/

namespace Sys2Proof.Machine

/-! ## What one step of a pass can do -/

/-- R84, R85: a pass leaves a reference, or decides a LOCAL mailbox that is QUEUED or WAITING_SPACE: it waits, it is
handed off, or it is refused. -/
theorem State.passAt_cases (retry : Bool) (s : State) (r : Ref) :
    State.passAt retry s r = s
      ∨ s.isLocal r = true ∧ ((s.mailbox r).state = .queued ∨ (s.mailbox r).state = .waitingSpace)
        ∧ (State.passAt retry s r = s.waitForSpace r
          ∨ (∃ rec p i, State.passAt retry s r = s.handOff r rec p i)
          ∨ State.passAt retry s r = s.complete r .refused none) := by
  unfold State.passAt
  split
  next rec hrec =>
    split
    next hc =>
      simp only [Bool.and_eq_true, Bool.or_eq_true, beq_iff_eq, State.free] at hc
      obtain ⟨hk, hst⟩ := hc
      refine .inr ⟨by simp [State.isLocal, State.kind, hrec, hk], ?_, ?_⟩
      · exact hst.imp (fun h => h.1.1) (fun h => h.2)
      · unfold State.decideLocal
        split
        next p _ _ =>
          split
          · exact .inl rfl
          · split
            · exact .inl rfl
            next i _ => exact .inr (.inl ⟨rec, p, i, rfl⟩)
        next => exact .inr (.inr rfl)
    next => exact .inl rfl
  next => exact .inl rfl

/-- What every step of a pass keeps, the pass keeps. -/
theorem State.localPass_keeps {P : State → Prop} (retry : Bool) (h : ∀ s r, P s → P (State.passAt retry s r)) {s : State}
    (hs : P s) : P (s.localPass retry) := by
  have key : ∀ (l : List Ref) (u : State), P u → P (l.foldl (State.passAt retry) u) := by
    intro l
    induction l with
    | nil => exact fun _ hu => hu
    | cons r l ih => exact fun u hu => ih _ (h u r hu)
  exact key s.sched.refs s hs

/-! ## Reception slot and LINE -/

/-- The reception slot and the LINE flag of every port are as they were. -/
def State.SameSlotAndLine (s t : State) : Prop :=
  t.store.rxSlot = s.store.rxSlot ∧ ∀ q, (t.engine q).flags.line = (s.engine q).flags.line

theorem State.SameSlotAndLine.trans {s t u : State} (h : s.SameSlotAndLine t) (g : t.SameSlotAndLine u) :
    s.SameSlotAndLine u :=
  ⟨g.1.trans h.1, fun q => (g.2 q).trans (h.2 q)⟩

theorem State.complete_sameSlotAndLine (s : State) (r : Ref) (o : MailOutcome) (c : Option ExpiryCause) :
    s.SameSlotAndLine (s.complete r o c) :=
  ⟨rfl, fun q => by rw [State.complete_engine]; split <;> rfl⟩

theorem State.appendRecord_sameSlotAndLine (s : State) (p : Port) (d : Delivery) :
    s.SameSlotAndLine (s.appendRecord p d) :=
  ⟨rfl, fun q => by
    rw [State.appendRecord_engine]
    split
    next h => rw [h]
    next => rfl⟩

theorem State.handOff_sameSlotAndLine (s : State) (r : Ref) (rec : MailRecord) (p : Port) (i : SlotNo) :
    s.SameSlotAndLine (s.handOff r rec p i) :=
  have hw : s.SameSlotAndLine (s.writeSlot i rec.payload) := ⟨rfl, fun _ => rfl⟩
  (hw.trans (State.appendRecord_sameSlotAndLine _ p _)).trans (State.complete_sameSlotAndLine _ r .accepted none)

theorem State.passAt_sameSlotAndLine (retry : Bool) (s : State) (r : Ref) :
    s.SameSlotAndLine (State.passAt retry s r) := by
  rcases State.passAt_cases retry s r with h | ⟨-, -, h | ⟨rec, p, i, h⟩ | h⟩
  · rw [h]; exact ⟨rfl, fun _ => rfl⟩
  · rw [h]; exact ⟨rfl, fun _ => rfl⟩
  · rw [h]; exact s.handOff_sameSlotAndLine r rec p i
  · rw [h]; exact s.complete_sameSlotAndLine r _ _

theorem State.localPass_sameSlotAndLine (retry : Bool) (s : State) : s.SameSlotAndLine (s.localPass retry) :=
  State.localPass_keeps (P := s.SameSlotAndLine) retry (fun u r hu => hu.trans (u.passAt_sameSlotAndLine retry r))
    ⟨rfl, fun _ => rfl⟩

theorem Upd.finish_sameSlotAndLine (u : Upd) : u.state.SameSlotAndLine u.finish := by
  unfold Upd.finish
  split
  · exact u.state.localPass_sameSlotAndLine true
  · split
    · exact u.state.localPass_sameSlotAndLine false
    · exact ⟨rfl, fun _ => rfl⟩

/-! ## A mailbox that is left alone -/

/-- The mailbox `r` is left as it is: if it is off the pending list it stays off, if it is on its port's completion list
it stays on, and a TXDONE that is set stays set. -/
structure State.Leaves (s t : State) (r : Ref) : Prop where
  mailbox : t.mailbox r = s.mailbox r
  refs : r ∉ s.sched.refs → r ∉ t.sched.refs
  completions : r.index ∈ s.completions r.port → r.index ∈ t.completions r.port
  txDone : (s.engine r.port).flags.txDone = true → (t.engine r.port).flags.txDone = true

theorem State.Leaves.refl (s : State) (r : Ref) : s.Leaves s r := ⟨rfl, id, id, id⟩

theorem State.Leaves.trans {s t u : State} {r : Ref} (h : s.Leaves t r) (g : t.Leaves u r) : s.Leaves u r :=
  ⟨g.mailbox.trans h.mailbox, g.refs ∘ h.refs, g.completions ∘ h.completions, g.txDone ∘ h.txDone⟩

/-- A frame without mailboxes and lists leaves every mailbox, if TXDONE stays set. -/
theorem State.Leaves.of_only {s t : State} {l : List Part} (h : s.OnlyChanges t l) (hb : Part.boxes ∉ l)
    (hr : Part.refs ∉ l) (hc : Part.completions ∉ l) {r : Ref}
    (ht : (s.engine r.port).flags.txDone = true → (t.engine r.port).flags.txDone = true) : s.Leaves t r := by
  have e : t.sched.refs = s.sched.refs := h.2 .refs hr
  exact ⟨h.mailbox hb r, by rw [e]; exact id, by rw [h.completions hc]; exact id, ht⟩

/-- A frame without mailboxes, lists and engines leaves every mailbox. -/
theorem State.Leaves.of_frame {s t : State} {l : List Part} (h : s.OnlyChanges t l) (hb : Part.boxes ∉ l)
    (hr : Part.refs ∉ l) (hc : Part.completions ∉ l) (he : Part.engines ∉ l) (r : Ref) : s.Leaves t r :=
  .of_only h hb hr hc (by rw [h.engine he]; exact id)

/-- R66: what has been completed stays so while the mailbox is left alone. -/
theorem State.Completed.leaves {s t u : State} {r : Ref} {o : MailOutcome} {c : Option ExpiryCause}
    (h : s.Completed t r o c) (g : t.Leaves u r) : s.Completed u r o c := by
  obtain ⟨h1, h2, h3, h4, h5, h6, h7, h8, h9⟩ := h
  unfold State.Completed
  rw [g.mailbox]
  exact ⟨h1, h2, h3, h4, h5, h6, g.refs h7, g.completions h8, g.txDone h9⟩

/-- The completion of another mailbox leaves `r`. -/
theorem State.complete_leaves {s : State} {q r : Ref} (hq : r ≠ q) (o : MailOutcome) (c : Option ExpiryCause) :
    s.Leaves (s.complete q o c) r := by
  refine ⟨by rw [State.complete_mailbox, if_neg hq], fun h => ?_, fun h => ?_, fun h => ?_⟩
  · rw [State.complete_refs]
    exact fun hm => h (List.mem_of_mem_filter hm)
  · rw [State.complete_completions]
    split
    next hp => rw [← hp]; exact List.mem_append_left _ h
    next => exact h
  · rw [State.complete_engine]
    split
    · rfl
    · exact h

theorem State.appendRecord_leaves (s : State) (p : Port) (d : Delivery) (r : Ref) : s.Leaves (s.appendRecord p d) r :=
  .of_only (s.appendRecord_only p d) (by decide) (by decide) (by decide) (fun h => by
    rw [State.appendRecord_engine]
    split
    next hp => rw [← hp]; exact h
    next => exact h)

theorem State.handOff_leaves {s : State} {q r : Ref} (hq : r ≠ q) (rec : MailRecord) (p : Port) (i : SlotNo) :
    s.Leaves (s.handOff q rec p i) r :=
  have hw : s.Leaves (s.writeSlot i rec.payload) r :=
    .of_frame (s.writeSlot_only i rec.payload) (by decide) (by decide) (by decide) (by decide) r
  (hw.trans (State.appendRecord_leaves _ p _ r)).trans (State.complete_leaves hq .accepted none)

theorem State.waitForSpace_leaves {s : State} {q r : Ref} (hq : r ≠ q) : s.Leaves (s.waitForSpace q) r :=
  ⟨by rw [State.waitForSpace, State.putMailbox_mailbox, if_neg hq], id, id, id⟩

/-- R84, R85: no local pass decides the mailbox `r`: it is not LOCAL, or neither QUEUED nor WAITING_SPACE. -/
def State.Undecided (s : State) (r : Ref) : Prop :=
  s.isLocal r = false ∨ (s.mailbox r).state ≠ .queued ∧ (s.mailbox r).state ≠ .waitingSpace

theorem State.Undecided.of_mailbox {s t : State} {r : Ref} (h : s.Undecided r) (hm : t.mailbox r = s.mailbox r) :
    t.Undecided r := by
  unfold State.Undecided State.isLocal State.kind at *
  rw [hm]
  exact h

theorem State.Undecided.of_state {s : State} {r : Ref} (h : (s.mailbox r).state ≠ .queued)
    (h' : (s.mailbox r).state ≠ .waitingSpace) : s.Undecided r := .inr ⟨h, h'⟩

theorem State.passAt_leaves (retry : Bool) {s : State} {r : Ref} (h : s.Undecided r) (q : Ref) :
    s.Leaves (State.passAt retry s q) r := by
  have hne : s.isLocal q = true → (s.mailbox q).state = .queued ∨ (s.mailbox q).state = .waitingSpace → r ≠ q := by
    rintro hl hst rfl
    rcases h with h | ⟨h, h'⟩
    · rw [h] at hl; cases hl
    · exact hst.elim h h'
  rcases State.passAt_cases retry s q with e | ⟨hl, hst, e | ⟨rec, p, i, e⟩ | e⟩
  · rw [e]; exact .refl s r
  · rw [e]; exact State.waitForSpace_leaves (hne hl hst)
  · rw [e]; exact State.handOff_leaves (hne hl hst) rec p i
  · rw [e]; exact State.complete_leaves (hne hl hst) _ _

/-- R84: a local pass leaves a mailbox that it does not decide. -/
theorem State.localPass_leaves (retry : Bool) {s : State} {r : Ref} (h : s.Undecided r) :
    s.Leaves (s.localPass retry) r :=
  State.localPass_keeps (P := fun u => s.Leaves u r) retry
    (fun _ q hu => hu.trans (State.passAt_leaves retry (h.of_mailbox hu.mailbox) q)) (.refl s r)

theorem Upd.finish_leaves {u : Upd} {r : Ref} (h : u.state.Undecided r) : u.state.Leaves u.finish r := by
  unfold Upd.finish
  split
  · exact State.localPass_leaves true h
  · split
    · exact State.localPass_leaves false h
    · exact .refl _ r

/-! ## Fault confinement and round boundaries -/

/-- R51: a change of the fault confinement unit sets no flag but LINE. -/
theorem State.confine_flags (s : State) (f : Confinement) (q : Port) :
    (s.confine f).engine q
      = { s.engine q with flags := { (s.engine q).flags with line := ((s.confine f).engine q).flags.line } } := by
  rw [State.confine_engine]
  split <;> rfl

theorem State.confine_leaves (s : State) (f : Confinement) (r : Ref) : s.Leaves (s.confine f) r :=
  .of_only (s.confine_only f) (by decide) (by decide) (by decide) (fun h => by rw [State.confine_flags]; exact h)

theorem State.appendHealth_eq_confine (s : State) (raw : RawResult) : ∃ f, s.appendHealth raw = s.confine f := by
  unfold State.appendHealth
  simp only []
  split
  all_goals exact ⟨_, rfl⟩

theorem State.appendHealth_leaves (s : State) (raw : RawResult) (r : Ref) : s.Leaves (s.appendHealth raw) r := by
  obtain ⟨f, e⟩ := s.appendHealth_eq_confine raw
  rw [e]
  exact s.confine_leaves f r

theorem State.confinementRoundBoundary_leaves (s : State) (r : Ref) : s.Leaves s.confinementRoundBoundary r := by
  unfold State.confinementRoundBoundary
  simp only []
  split
  · split
    all_goals exact s.confine_leaves _ r
  · exact .of_frame (s.putFault_only _) (by decide) (by decide) (by decide) (by decide) r

/-- R44: the round boundary clears the spoiled-round marker. -/
theorem State.confinementRoundBoundary_spoiled (s : State) : s.confinementRoundBoundary.fault.spoiled = false := by
  unfold State.confinementRoundBoundary
  simp only []
  split
  · split <;> rw [State.confine_fault]
  · rfl

/-- R45, R46: a spoiled round in ACTIVE is no clean round, and its boundary leaves the fault window. -/
theorem State.confinementRoundBoundary_window {s : State} (h : s.member.lineState = .active)
    (hs : s.fault.spoiled = true) : s.confinementRoundBoundary.fault.window = s.fault.window := by
  unfold State.confinementRoundBoundary State.countRound
  by_cases hsil : s.fault.state = .silenced
  · simp [h, hs, hsil]
  · simp [hsil]

/-- A round boundary is the bank's, a local pass if a hold-off ends, and the fault confinement unit's. -/
theorem State.roundBoundary_cases (s : State) :
    ∃ u, (u = s.bankRoundBoundary ∨ u = s.bankRoundBoundary.localPass false)
      ∧ s.roundBoundary = u.confinementRoundBoundary := by
  unfold State.roundBoundary
  simp only []
  split
  · exact ⟨_, .inr rfl, rfl⟩
  · exact ⟨_, .inl rfl, rfl⟩

theorem State.roundBoundary_spoiled (s : State) : s.roundBoundary.fault.spoiled = false := by
  obtain ⟨u, -, e⟩ := s.roundBoundary_cases
  rw [e]
  exact u.confinementRoundBoundary_spoiled

theorem State.roundBoundary_window {s : State} (h : s.member.lineState = .active) (hs : s.fault.spoiled = true) :
    s.roundBoundary.fault.window = s.fault.window := by
  obtain ⟨u, hu, e⟩ := s.roundBoundary_cases
  have hf : u.fault = s.fault ∧ u.member = s.member := by
    rcases hu with rfl | rfl
    · exact ⟨rfl, rfl⟩
    · have hp := s.bankRoundBoundary.localPass_only false
      exact ⟨hp.2 .fault (by decide), hp.member (by decide) (by decide) (by decide)⟩
  rw [e, State.confinementRoundBoundary_window (by rw [hf.2, h]) (by rw [hf.1, hs]), hf.1]

theorem State.roundBoundary_rxSlot (s : State) : s.roundBoundary.store.rxSlot = s.store.rxSlot := by
  obtain ⟨u, hu, e⟩ := s.roundBoundary_cases
  have hc : u.confinementRoundBoundary.store = u.store := u.confinementRoundBoundary_only.2 .store (by decide)
  rw [e, hc]
  rcases hu with rfl | rfl
  · rfl
  · exact (s.bankRoundBoundary.localPass_sameSlotAndLine false).1

/-- R57, R61: of a mailbox that the pass does not decide, a round boundary makes what the bank makes of it. -/
theorem State.roundBoundary_leaves {s : State} {r : Ref} (h : s.bankRoundBoundary.Undecided r) :
    s.bankRoundBoundary.Leaves s.roundBoundary r := by
  obtain ⟨u, hu, e⟩ := s.roundBoundary_cases
  rw [e]
  rcases hu with rfl | rfl
  · exact State.confinementRoundBoundary_leaves _ r
  · exact (State.localPass_leaves false h).trans (State.confinementRoundBoundary_leaves _ r)

/-- R57, R61: only QUEUED and HELD mailboxes are moved by the boundary. -/
theorem State.bankRoundBoundary_leaves {s : State} {r : Ref} (h : (s.mailbox r).atRoundBoundary = s.mailbox r) :
    s.Leaves s.bankRoundBoundary r :=
  ⟨by rw [State.bankRoundBoundary_mailbox, h], id, id, id⟩

/-! ## Slips -/

theorem State.putLine_leaves (s : State) (l : LineUnit) (r : Ref) : s.Leaves (s.putLine l) r :=
  .of_frame (s.putLine_only l) (by decide) (by decide) (by decide) (by decide) r

/-- R9, R10: the state of a slip before the turn counter takes the sender's address. -/
def State.slipSeen (s : State) : State :=
  (s.putLine { s.line with turnSlips := saturatingSucc s.line.turnSlips }).spoil

theorem State.slipSeen_only (s : State) : s.OnlyChanges s.slipSeen [.line, .fault] :=
  ((s.putLine_only _).mono (by decide)).seq (State.spoil_only _) (by decide)

/-- R9: a slip is counted and spoils the round; a turn counter that moves backwards takes a round boundary. -/
theorem State.slip_cases (s : State) (a : NodeAddr) :
    (s.tracking = true ∧ a < s.line.turn
        ∧ s.slip a = s.slipSeen.advanceRound.roundBoundary.putLine (s.slip a).line)
      ∨ (¬ (s.tracking = true ∧ a < s.line.turn) ∧ s.slip a = s.slipSeen.putLine (s.slip a).line) := by
  unfold State.slip
  by_cases ht : s.tracking = true
  · by_cases ha : a < s.line.turn
    · refine .inl ⟨ht, ha, ?_⟩
      simp only [ht, ha, if_true]
      rfl
    · refine .inr ⟨fun h => ha h.2, ?_⟩
      simp only [ht, ha, if_true, if_false]
      rfl
  · refine .inr ⟨fun h => ht h.1, ?_⟩
    simp only [ht]
    rfl

/-- R44: a slip without a round boundary spoils the round, and no more. -/
theorem State.slip_fault_still (s : State) (a : NodeAddr) (h : ¬ (s.tracking = true ∧ a < s.line.turn)) :
    (s.slip a).fault = { s.fault with spoiled := true } := by
  rcases s.slip_cases a with ⟨ht, ha, -⟩ | ⟨-, e⟩
  · exact absurd ⟨ht, ha⟩ h
  · rw [e]; rfl

/-- R44: after a slip the round is spoiled, unless the slip began a new one. -/
theorem State.slip_spoiled (s : State) (a : NodeAddr) (ht : s.tracking = true) :
    (s.slip a).fault.spoiled = !decide (a < s.line.turn) := by
  rcases s.slip_cases a with ⟨-, ha, e⟩ | ⟨h, e⟩
  · rw [e, (State.putLine_fields _ _).2.1, State.roundBoundary_spoiled]
    simp [ha]
  · have ha : ¬ a < s.line.turn := fun ha => h ⟨ht, ha⟩
    rw [s.slip_fault_still a h]
    simp [ha]

/-- R45: a slip in ACTIVE leaves the fault window: the round that it ends was spoiled by it. -/
theorem State.slip_window {s : State} (a : NodeAddr) (h : s.member.lineState = .active) :
    (s.slip a).fault.window = s.fault.window := by
  rcases s.slip_cases a with ⟨-, -, e⟩ | ⟨hn, -⟩
  · rw [e, (State.putLine_fields _ _).2.1, State.roundBoundary_window (s := s.slipSeen.advanceRound) h rfl]
    rfl
  · rw [s.slip_fault_still a hn]

theorem State.slip_rxSlot (s : State) (a : NodeAddr) : (s.slip a).store.rxSlot = s.store.rxSlot := by
  rcases s.slip_cases a with ⟨-, -, e⟩ | ⟨-, e⟩
  · rw [e]
    exact State.roundBoundary_rxSlot _
  · rw [e]
    rfl

/-- A slip without a round boundary leaves the frame store. -/
theorem State.slip_store_still (s : State) (a : NodeAddr) (h : ¬ (s.tracking = true ∧ a < s.line.turn)) :
    (s.slip a).store = s.store := by
  rcases s.slip_cases a with ⟨ht, ha, -⟩ | ⟨-, e⟩
  · exact absurd ⟨ht, ha⟩ h
  · rw [e]; rfl

/-- R20: a counter that stops at 65535. -/
theorem saturatingSucc_toNat (c : BitVec 16) : (saturatingSucc c).toNat = min 65535 (c.toNat + 1) := by
  have hc : c.toNat < 65536 := c.isLt
  unfold saturatingSucc
  split
  next h =>
    rw [beq_iff_eq] at h
    subst h
    rfl
  next h =>
    have hn : c.toNat ≠ 65535 := fun e => h (by rw [beq_iff_eq]; exact BitVec.eq_of_toNat_eq e)
    rw [BitVec.toNat_add]
    simp
    omega

end Sys2Proof.Machine
end

section
/-! O46: header byte 0 of a received activity (R5 check 1, R9, R10, R17): a disturbance, a foreign use, a frame in step, or
a slip with a frame. -/

namespace Sys2Proof.Machine

variable (s : State)

/-! ## The four cases of header byte 0 -/

theorem State.headerZero_disturbance {pre h0 : RxChar} (h : isDisturbance pre h0 = true) :
    s.headerZero pre h0 = s.follow .disturbance [pre, h0] := by
  simp [State.headerZero, h]

theorem State.headerZero_foreign {pre h0 : RxChar} (h : isDisturbance pre h0 = false)
    (ha : senderOf h0.value = s.member.config.nodeAddress) : s.headerZero pre h0 = s.foreignUse [pre, h0] := by
  simp [State.headerZero, h, ha]

theorem State.headerZero_slip {pre h0 : RxChar} (h : isDisturbance pre h0 = false)
    (ha : senderOf h0.value ≠ s.member.config.nodeAddress) (ht : s.tracking = true)
    (hn : senderOf h0.value ≠ s.line.turn) :
    s.headerZero pre h0 = (s.slip (senderOf h0.value)).frameStart [pre, h0] := by
  simp [State.headerZero, h, ha, ht, hn]

theorem State.headerZero_inStep {pre h0 : RxChar} (h : isDisturbance pre h0 = false)
    (ha : senderOf h0.value ≠ s.member.config.nodeAddress) (hn : senderOf h0.value = s.line.turn ∨ s.tracking = false) :
    s.headerZero pre h0 = s.frameStart [pre, h0] := by
  rcases hn with hn | hn
  · simp [State.headerZero, h, ← hn, ha]
  · simp [State.headerZero, h, ha, hn]

/-! ## The row -/

theorem execTurnCheck_eq (rx : Reception) (chars : List RxChar) (pre h0 : RxChar) (hr : s.Receives rx)
    (hp : rx.phase = .opening) (hc : rx.chars ++ chars = [pre, h0]) :
    exec (.turnCheck chars) s = .next (s.headerZero pre h0) := by
  simp [exec, execTurnCheck, hr.1, hr.2, hp, hc]

/-- R169: the sender address of header byte 0, by its number. -/
theorem senderOf_eq {h0 : Byte} {a : NodeAddr} (h : a.toNat = h0.toNat / 8) : senderOf h0 = a :=
  BitVec.eq_of_toNat_eq ((senderOf_toNat h0).trans h.symm)

theorem State.tracking_false_of_syncing {s : State} (h : s.member.lineState = .syncing) : s.tracking = false := by
  simp [State.tracking, h]

/-- R9, R20: the turn counter, the round number and the slip counter after a slip while turns are tracked. -/
theorem State.slip_line_tracking (a : NodeAddr) (ht : s.tracking = true) :
    (s.slip a).line.turn = a
      ∧ (s.slip a).line.round = s.line.round + (if a < s.line.turn then 1 else 0)
      ∧ (s.slip a).line.turnSlips.toNat = min 65535 (s.line.turnSlips.toNat + 1) := by
  rw [s.slip_line a]
  refine ⟨by simp [ht], ?_, saturatingSucc_toNat _⟩
  by_cases ha : a < s.line.turn <;> simp [ht, ha]

/-- R10: in SYNCING a slip counts and spoils, and moves no turn. -/
theorem State.slip_syncing (a : NodeAddr) (h : s.member.lineState = .syncing) :
    (s.slip a).line.turn = s.line.turn ∧ (s.slip a).line.round = s.line.round
      ∧ (s.slip a).fault = { s.fault with spoiled := true } := by
  have ht := State.tracking_false_of_syncing h
  rw [s.slip_line a]
  exact ⟨by simp [ht], by simp [ht], s.slip_fault_still a (by simp [ht])⟩

/-- R10: a foreign use is a slip at the own address, followed without a reception. -/
theorem State.foreignUse_writes (chars : List RxChar) :
    (s.foreignUse chars).line.turnSlips.toNat = min 65535 (s.line.turnSlips.toNat + 1)
      ∧ (s.foreignUse chars).line.reception.map (·.phase) = some .foreign
      ∧ (s.foreignUse chars).line.holdFlag = s.line.holdFlag
      ∧ (s.foreignUse chars).store.rxSlot = s.store.rxSlot
      ∧ (s.foreignUse chars).fault = (s.slip s.member.config.nodeAddress).fault
      ∧ (s.foreignUse chars).line.turn = (s.slip s.member.config.nodeAddress).line.turn
      ∧ (s.foreignUse chars).line.round = (s.slip s.member.config.nodeAddress).line.round := by
  rw [s.foreignUse_line]
  refine ⟨?_, rfl, by rw [s.slip_line], s.slip_rxSlot _, rfl, rfl, rfl⟩
  rw [s.slip_line]
  exact saturatingSucc_toNat _

/-- R17: outside ACTIVE frame start asks for no slot. -/
theorem State.frameStart_no_slot (chars : List RxChar) (h : s.member.lineState ≠ .active) :
    (s.frameStart chars).line.holdFlag = false ∧ (s.frameStart chars).store = s.store := by
  constructor
  · rw [s.frameStart_line]
    simp [h]
  · simp [State.frameStart, h]

/-- R136: in ACTIVE frame start takes the lowest free slot, or none. -/
theorem State.frameStart_slot (chars : List RxChar) (h : s.member.lineState = .active) :
    (s.frameStart chars).line.holdFlag = s.lowestFree.isSome
      ∧ (s.frameStart chars).store.rxSlot = s.lowestFree.or s.store.rxSlot := by
  constructor
  · rw [s.frameStart_line]
    simp [h]
  · simp [State.frameStart, h, s.takeReceptionSlot_eq.2]

/-- The holder counts and the reception slot alone decide which slot is the lowest free one. -/
theorem State.lowestFree_congr {s t : State} (h : t.store.holders = s.store.holders)
    (hr : t.store.rxSlot = s.store.rxSlot) : t.lowestFree = s.lowestFree := by
  have e : t.slotFree = s.slotFree := by
    funext i
    simp only [State.slotFree, h, hr]
  simp only [State.lowestFree, State.freeSlots, e]

/-- R17, R136: what a frame start after the turn check of `t` writes, where `t` has the frame store of `s`. -/
theorem State.frameStart_slot_of {s t : State} (chars : List RxChar) (hst : t.store = s.store)
    (h : t.member.lineState = .active) :
    (∀ i, s.LowestFree i → (t.frameStart chars).store.rxSlot = some i ∧ (t.frameStart chars).line.holdFlag = true)
      ∧ (s.freeSlots = [] →
          (t.frameStart chars).store.rxSlot = s.store.rxSlot ∧ (t.frameStart chars).line.holdFlag = false) := by
  obtain ⟨hh, hr⟩ := t.frameStart_slot chars h
  have hl : t.lowestFree = s.lowestFree := State.lowestFree_congr (by rw [hst]) (by rw [hst])
  rw [hl] at hh hr
  rw [hh, hr, hst]
  constructor
  · intro i hi
    rw [(s.lowestFree_some i).2 hi]
    exact ⟨rfl, rfl⟩
  · intro hf
    rw [s.lowestFree_none.2 hf]
    exact ⟨rfl, rfl⟩

/-- R10: what header byte 0 with the own address brings. -/
theorem State.headerZero_foreign_writes {pre h0 : RxChar} (h : isDisturbance pre h0 = false)
    (ha : senderOf h0.value = s.member.config.nodeAddress) :
    (s.headerZero pre h0).line.turnSlips.toNat = min 65535 (s.line.turnSlips.toNat + 1)
      ∧ (s.headerZero pre h0).line.reception.map (·.phase) = some .foreign
      ∧ (s.headerZero pre h0).line.holdFlag = s.line.holdFlag
      ∧ (s.headerZero pre h0).store.rxSlot = s.store.rxSlot
      ∧ (s.member.lineState = .syncing →
          (s.headerZero pre h0).line.turn = s.line.turn ∧ (s.headerZero pre h0).line.round = s.line.round
          ∧ (s.headerZero pre h0).fault = { s.fault with spoiled := true })
      ∧ (s.tracking = true →
          (s.headerZero pre h0).line.turn = senderOf h0.value
          ∧ (s.headerZero pre h0).line.round
              = s.line.round + (if senderOf h0.value < s.line.turn then 1 else 0)
          ∧ (s.headerZero pre h0).fault.spoiled = !decide (senderOf h0.value < s.line.turn)) := by
  obtain ⟨h1, h2, h3, h4, h5, h6, h7⟩ := s.foreignUse_writes [pre, h0]
  rw [s.headerZero_foreign h ha, h5, h6, h7, ha]
  refine ⟨h1, h2, h3, h4, s.slip_syncing _, fun ht => ?_⟩
  obtain ⟨h8, h9, -⟩ := s.slip_line_tracking s.member.config.nodeAddress ht
  exact ⟨h8, h9, s.slip_spoiled _ ht⟩

/-- R17: what header byte 0 of another node brings: the frame that begins, and its slot. -/
theorem State.headerZero_frame_writes {pre h0 : RxChar} (h : isDisturbance pre h0 = false)
    (ha : senderOf h0.value ≠ s.member.config.nodeAddress) :
    (s.headerZero pre h0).line.reception
        = some { phase := .frame, chars := [pre, h0], activeAtStart := s.member.lineState == .active }
      ∧ (s.member.lineState ≠ .active →
          (s.headerZero pre h0).line.holdFlag = false ∧ (s.headerZero pre h0).store.rxSlot = s.store.rxSlot)
      ∧ (s.member.lineState = .active → s.line.turn ≤ senderOf h0.value →
          (∀ i, s.LowestFree i →
            (s.headerZero pre h0).store.rxSlot = some i ∧ (s.headerZero pre h0).line.holdFlag = true)
          ∧ (s.freeSlots = [] →
            (s.headerZero pre h0).store.rxSlot = s.store.rxSlot ∧ (s.headerZero pre h0).line.holdFlag = false)) := by
  by_cases hs : s.tracking = true ∧ senderOf h0.value ≠ s.line.turn
  · have hm := s.slip_member (senderOf h0.value)
    rw [s.headerZero_slip h ha hs.1 hs.2]
    refine ⟨by rw [State.frameStart_line, hm], fun hn => ?_, fun hact hle => ?_⟩
    · obtain ⟨hh, hst⟩ := (s.slip (senderOf h0.value)).frameStart_no_slot [pre, h0] (by rw [hm]; exact hn)
      exact ⟨hh, by rw [hst, s.slip_rxSlot]⟩
    · have hst := s.slip_store_still (senderOf h0.value) (fun hb => absurd hb.2 (BitVec.not_lt.2 hle))
      exact State.frameStart_slot_of [pre, h0] hst (by rw [hm]; exact hact)
  · have hn : senderOf h0.value = s.line.turn ∨ s.tracking = false := by
      by_cases ht : s.tracking = true
      · exact .inl (by_contra fun hne => hs ⟨ht, hne⟩)
      · exact .inr (by simpa using ht)
    rw [s.headerZero_inStep h ha hn]
    refine ⟨by rw [s.frameStart_line], fun hn => ?_, fun hact _ => State.frameStart_slot_of [pre, h0] rfl hact⟩
    obtain ⟨hh, hst⟩ := s.frameStart_no_slot [pre, h0] hn
    exact ⟨hh, by rw [hst]⟩

/-- R9: what header byte 0 of another node out of step brings to turn, round and fault confinement. -/
theorem State.headerZero_slip_writes {pre h0 : RxChar} (h : isDisturbance pre h0 = false)
    (ha : senderOf h0.value ≠ s.member.config.nodeAddress) (ht : s.tracking = true)
    (hn : senderOf h0.value ≠ s.line.turn) :
    (s.headerZero pre h0).line.turnSlips.toNat = min 65535 (s.line.turnSlips.toNat + 1)
      ∧ (s.headerZero pre h0).line.turn = senderOf h0.value
      ∧ (s.headerZero pre h0).line.round = s.line.round + (if senderOf h0.value < s.line.turn then 1 else 0)
      ∧ (s.headerZero pre h0).fault.spoiled = !decide (senderOf h0.value < s.line.turn) := by
  obtain ⟨h1, h2, h3⟩ := s.slip_line_tracking (senderOf h0.value) ht
  have hf : ((s.slip (senderOf h0.value)).frameStart [pre, h0]).fault = (s.slip (senderOf h0.value)).fault :=
    (State.frameStart_only _ _).2 .fault (by decide)
  rw [s.headerZero_slip h ha ht hn, State.frameStart_line, hf]
  exact ⟨h3, h1, h2, s.slip_spoiled _ ht⟩

/-- Settles O46, by what the turn check finds. -/
theorem turnCheckDetectsSlipsAndStartsFrames : Obligations.TurnCheckDetectsSlipsAndStartsFrames := by
  intro s rx chars pre h0 a bad hr hp hc ha hbad
  have hdist : isDisturbance pre h0 = true ↔ bad := (isDisturbance_iff pre h0).trans hbad.symm
  obtain ⟨hact, hown, -, -, -, herr⟩ := s.headerZero_line_keeps pre h0
  have hsender := senderOf_eq ha
  refine ⟨_, execTurnCheck_eq s rx chars pre h0 hr hp hc, hact.trans hr.1, herr, hown, fun hb => ?_, fun hb hn => ?_,
    fun hb hn => ?_⟩
  · rw [s.headerZero_disturbance (hdist.2 hb)]
    exact ⟨rfl, s.follow_only _ _⟩
  · have hd : isDisturbance pre h0 = false := by rw [← Bool.not_eq_true, hdist]; exact hb
    obtain ⟨h1, h2, h3, h4, h5, h6⟩ := s.headerZero_foreign_writes hd (hsender.trans hn)
    rw [hsender] at h6
    exact ⟨h1, h2, h3, h4, h5, fun hl => h6 (s.tracking_iff.2 hl)⟩
  · have hd : isDisturbance pre h0 = false := by rw [← Bool.not_eq_true, hdist]; exact hb
    have hs : senderOf h0.value ≠ s.member.config.nodeAddress := by rw [hsender]; exact hn
    obtain ⟨h1, h2, h3⟩ := s.headerZero_frame_writes hd hs
    have h4 := s.headerZero_slip_writes hd hs
    rw [hsender] at h3 h4
    refine ⟨h1, h2, fun hst => ?_, fun hne hl => h4 (s.tracking_iff.2 hl) hne, h3⟩
    rw [s.headerZero_inStep hd hs (hst.imp (hsender.trans ·) State.tracking_false_of_syncing)]
    have hf : (s.frameStart [pre, h0]).fault = s.fault := (s.frameStart_only _).2 .fault (by decide)
    rw [s.frameStart_line]
    exact ⟨rfl, rfl, hf, s.frameStart_only _⟩

end Sys2Proof.Machine
end

section
/-! O47: a reception end (R18) that is not GOOD, that nobody answers, or that establishes sync. -/

namespace Sys2Proof.Machine

/-- The pending list and the mailboxes alone say whether a LOCAL mailbox is pending. -/
theorem State.NoLocalPending.of_only {s t : State} {l : List Part} (h : s.NoLocalPending) (hf : s.OnlyChanges t l)
    (hb : Part.boxes ∉ l) (hr : Part.refs ∉ l) : t.NoLocalPending := by
  have e : t.sched.refs = s.sched.refs := hf.2 .refs hr
  have m := hf.mailbox hb
  unfold State.NoLocalPending State.isLocal State.kind at *
  simpa only [e, m] using h

variable (s : State)

/-! ## The row -/

theorem execReceptionEnd_eq (rx : Reception) (rest : List RxChar) (hr : s.Receives rx)
    (he : rx.phase.endsAs (classify (rx.chars ++ rest)) = true) :
    exec (.receptionEnd rest) s = .next (s.receptionEnd rx (classify (rx.chars ++ rest))) := by
  simp [exec, execReceptionEnd, hr.1, hr.2, he]

/-! ## What is counted -/

/-- R20: the CHECK_ERROR counter as a number. -/
theorem countedErrors_toNat (c : RxClass) (n : BitVec 16) :
    (countedErrors c n).toNat = if c = .checkError then min 65535 (n.toNat + 1) else n.toNat := by
  unfold countedErrors
  split
  · exact saturatingSucc_toNat n
  · rfl

theorem State.syncsBy_iff (v : Classified) :
    s.syncsBy v = true
      ↔ s.member.lineState = .syncing ∧ v.cls = .good ∧ v.sender ≠ s.member.config.nodeAddress := by
  simp [State.syncsBy, and_assoc]

/-- R12: without sync a reception end counts, spoils and keeps the payload. -/
theorem State.receptionCounted_of_not_syncs {v : Classified} (h : ¬ s.syncsBy v = true) :
    s.receptionCounted v = (s.countReception v.cls).keepPayload v.payload := by
  rw [State.receptionCounted, State.syncByFrame_eq, s.syncsBy_counted v, if_neg h]

theorem State.keepPayload_countReception_fault (v : Classified) :
    ((s.countReception v.cls).keepPayload v.payload).fault
      = if v.cls = .good then s.fault else { s.fault with spoiled := true } :=
  Eq.trans ((State.keepPayload_only _ v.payload).2 .fault (by decide)) (s.countReception_fault v.cls)

/-- R44: only a GOOD reception end that establishes no sync leaves the round unspoiled. -/
theorem State.receptionCounted_fault (v : Classified) :
    (s.receptionCounted v).fault
      = if v.cls = .good ∧ ¬ s.syncsBy v = true then s.fault else { s.fault with spoiled := true } := by
  by_cases hs : s.syncsBy v = true
  · have hg := ((s.syncsBy_iff v).1 hs).2.1
    rw [State.receptionCounted, State.syncByFrame_eq, s.syncsBy_counted v, if_pos hs, State.syncEstablished_fault,
      (State.putLine_fields _ _).2.1, s.keepPayload_countReception_fault v, if_pos hg, if_neg (fun h => h.2 hs)]
  · rw [s.receptionCounted_of_not_syncs hs, s.keepPayload_countReception_fault v]
    simp only [hs, not_false_eq_true, and_true, Bool.false_eq_true]

/-- R31: of the engines, sync established writes LINE. -/
theorem State.receptionCounted_engine (v : Classified) (q : Port) :
    (s.receptionCounted v).engine q
      = if s.syncsBy v = true then { s.engine q with flags := { (s.engine q).flags with line := true } }
        else s.engine q := by
  have hc : ((s.countReception v.cls).keepPayload v.payload).engine q = s.engine q :=
    ((State.keepPayload_only _ v.payload).engine (by decide) q).trans
      ((s.countReception_only v.cls).engine (by decide) q)
  split
  next hs =>
    have hl := ((s.syncsBy_iff v).1 hs).1
    rw [State.receptionCounted, State.syncByFrame_eq, s.syncsBy_counted v, if_pos hs,
      State.syncEstablished_engine _ (by rw [(State.putLine_fields _ _).1, s.keepPayload_countReception_member v, hl]),
      (State.putLine_views _ _).2.1, hc]
  next hs => rw [s.receptionCounted_of_not_syncs hs, hc]

theorem State.keepPayload_holders (b : List Byte) : (s.keepPayload b).store.holders = s.store.holders := by
  unfold State.keepPayload
  split <;> rfl

theorem State.receptionCounted_holders (v : Classified) :
    (s.receptionCounted v).store.holders = s.store.holders := by
  have h1 : (s.receptionCounted v).store = ((s.countReception v.cls).keepPayload v.payload).store :=
    (State.syncByFrame_only _ v).2 .store (by decide)
  have h2 : (s.countReception v.cls).store = s.store := (s.countReception_only v.cls).2 .store (by decide)
  rw [h1, State.keepPayload_holders, h2]

/-- What a reception end writes without sync. -/
theorem State.receptionCounted_only_of_not_syncs {v : Classified} (h : ¬ s.syncsBy v = true) :
    s.OnlyChanges (s.receptionCounted v) [.line, .fault, .store] := by
  rw [s.receptionCounted_of_not_syncs h]
  exact ((s.countReception_only _).mono (by decide)).seq (State.keepPayload_only _ _) (by decide)

/-- What a GOOD reception end writes without sync. -/
theorem State.receptionCounted_only_of_good {v : Classified} (hg : v.cls = .good) (h : ¬ s.syncsBy v = true) :
    s.OnlyChanges (s.receptionCounted v) [.store] := by
  rw [s.receptionCounted_of_not_syncs h, hg]
  exact s.keepPayload_only _

/-! ## A reception end that nobody answers -/

/-- R18: the reception end hands nothing to reply decision and group delivery, or nothing comes of it. -/
def State.Unanswered (s : State) (rx : Reception) (v : Classified) : Prop :=
  s.receptionDecided rx v = .start (s.receptionCounted v)

theorem State.unanswered_of_not_good {rx : Reception} {v : Classified} (h : v.cls ≠ .good) : s.Unanswered rx v := by
  simp [State.Unanswered, State.receptionDecided, h]

theorem State.unanswered_of_not_active {rx : Reception} (v : Classified) (h : rx.activeAtStart = false) :
    s.Unanswered rx v := by
  simp [State.Unanswered, State.receptionDecided, h]

/-- R115: a frame to another node. -/
theorem State.unanswered_of_other (rx : Reception) {v : Classified} {d c b fr} (hv : v.body = .addressed d c b fr)
    (hd : d ≠ s.member.config.nodeAddress) : s.Unanswered rx v := by
  have hc : (s.receptionCounted v).member.config = s.member.config := by rw [s.receptionCounted_member]
  unfold State.Unanswered State.receptionDecided
  split
  · exact State.decideReception_other _ v hv (by rw [hc]; exact hd)
  · rfl

/-- The reception end before the local pass. -/
def State.receptionOver (s : State) (rx : Reception) (v : Classified) : State :=
  (s.receptionDecided rx v).state.endReceptionSlot.state.afterReceptionEnd v rx

theorem State.receptionEnd_sameSlotAndLine (rx : Reception) (v : Classified) :
    (s.receptionOver rx v).SameSlotAndLine (s.receptionEnd rx v) := by
  rw [State.receptionEnd_eq]
  exact Upd.finish_sameSlotAndLine _

theorem State.receptionOver_only (rx : Reception) (v : Classified) :
    (s.receptionDecided rx v).state.OnlyChanges (s.receptionOver rx v) [.line, .store] :=
  ((State.endReceptionSlot_only _).mono (by decide)).seq (State.afterReceptionEnd_only _ v rx) (by decide)

theorem State.receptionOver_store (rx : Reception) (v : Classified) :
    (s.receptionOver rx v).store = { (s.receptionDecided rx v).state.store with rxSlot := none } :=
  Eq.trans ((State.afterReceptionEnd_only _ v rx).2 .store (by decide)) (State.endReceptionSlot_eq _).2

/-- R18, R137: the reception slot is returned. -/
theorem State.receptionEnd_rxSlot (rx : Reception) (v : Classified) : (s.receptionEnd rx v).store.rxSlot = none := by
  rw [(s.receptionEnd_sameSlotAndLine rx v).1, s.receptionOver_store rx v]

/-- What follows on a reception end that nobody answers is the end of the slot and of the line time, and a pass. -/
theorem State.Unanswered.only {s : State} {rx : Reception} {v : Classified} (h : s.Unanswered rx v) :
    (s.receptionCounted v).OnlyChanges (s.receptionEnd rx v)
      [.line, .store, .boxes, .refs, .completions, .queues, .engines] := by
  have ho := s.receptionOver_only rx v
  rw [h] at ho
  have hf : (s.receptionOver rx v).OnlyChanges (s.receptionEnd rx v) passParts := by
    rw [State.receptionEnd_eq]
    exact Upd.finish_only _
  exact (ho.mono (by decide)).seq hf (by decide)

theorem State.Unanswered.line {s : State} {rx : Reception} {v : Classified} (h : s.Unanswered rx v) :
    ∃ b, (s.receptionEnd rx v).line = (s.receptionCounted v).line.receptionOver v rx b := by
  have hs := (State.endReceptionSlot_eq (s.receptionDecided rx v).state).1
  refine ⟨(s.receptionDecided rx v).state.endReceptionSlot.state.tracking, ?_⟩
  rw [State.receptionEnd_eq, (Upd.finish_only _).line (by decide), (Upd.on_parts _ _).1, (Upd.andThen_parts _ _).1,
    State.afterReceptionEnd_line _ v rx (by rw [hs]), hs, h]
  unfold LineUnit.receptionOver
  split <;> rfl

theorem State.Unanswered.reply_turn {s : State} {rx : Reception} {v : Classified} (h : s.Unanswered rx v) :
    (s.receptionEnd rx v).line.reply = s.line.reply
      ∧ (s.receptionEnd rx v).line.turn = if s.syncsBy v = true then v.sender else s.line.turn := by
  obtain ⟨b, hl⟩ := h.line
  rw [hl, s.receptionCounted_line v]
  unfold LineUnit.receptionOver
  split <;> exact ⟨rfl, rfl⟩

theorem State.Unanswered.line_flag {s : State} {rx : Reception} {v : Classified} (h : s.Unanswered rx v) (q : Port) :
    ((s.receptionEnd rx v).engine q).flags.line = ((s.receptionCounted v).engine q).flags.line := by
  rw [(s.receptionEnd_sameSlotAndLine rx v).2 q, (s.receptionOver_only rx v).engine (by decide) q, h]
  rfl

theorem State.Unanswered.fault {s : State} {rx : Reception} {v : Classified} (h : s.Unanswered rx v) :
    (s.receptionEnd rx v).fault = (s.receptionCounted v).fault := h.only.2 .fault (by decide)

theorem State.Unanswered.seq {s : State} {rx : Reception} {v : Classified} (h : s.Unanswered rx v) :
    (s.receptionEnd rx v).seq = s.seq :=
  Eq.trans (h.only.2 .seq (by decide)) ((s.receptionCounted_only v).2 .seq (by decide))

/-- R84: with no LOCAL mailbox pending nothing but line unit and slot follow. -/
theorem State.Unanswered.no_local {s : State} {rx : Reception} {v : Classified} (h : s.Unanswered rx v)
    (hn : s.NoLocalPending) :
    (s.receptionCounted v).OnlyChanges (s.receptionEnd rx v) [.line, .store]
      ∧ (s.receptionEnd rx v).store.holders = s.store.holders := by
  have ho := s.receptionOver_only rx v
  have hcn := (hn.of_only (s.receptionCounted_only v) (by decide) (by decide)).of_only
    (t := s.receptionOver rx v) (by rw [h] at ho; exact ho) (by decide) (by decide)
  have he : s.receptionEnd rx v = s.receptionOver rx v := by
    rw [State.receptionEnd_eq]
    exact Upd.finish_none _ hcn
  rw [he]
  refine ⟨by rw [h] at ho; exact ho, ?_⟩
  rw [s.receptionOver_store rx v, h]
  exact s.receptionCounted_holders v

/-! ## The line unit after every reception end -/

theorem State.receptionEnd_line_writes {rx : Reception} (v : Classified) (hr : s.Receives rx) :
    (s.receptionEnd rx v).line.holdFlag = false
      ∧ (s.receptionEnd rx v).line.turnSlips = s.line.turnSlips
      ∧ (s.receptionEnd rx v).line.round = s.line.round ∧ (s.receptionEnd rx v).line.own = s.line.own
      ∧ (s.receptionEnd rx v).line.checkErrors = countedErrors v.cls s.line.checkErrors
      ∧ (v.atCheckByte = true → v.h0.getLsbD 2 = true →
          (s.receptionEnd rx v).line.activity = .idle ∧ (s.receptionEnd rx v).line.reception = none)
      ∧ (v.atCheckByte = false ∨ v.h0.getLsbD 2 = false →
          (s.receptionEnd rx v).line.activity = .receiving
          ∧ (s.receptionEnd rx v).line.reception = some { rx with phase := .ended }) := by
  obtain ⟨c, b, hl⟩ := s.receptionEnd_line rx v
  rw [hl, s.receptionCounted_line v]
  unfold LineUnit.receptionOver
  split
  next h =>
    simp only [Bool.and_eq_true, groupBit] at h
    refine ⟨rfl, rfl, rfl, rfl, rfl, fun _ _ => ⟨rfl, rfl⟩, fun hn => ?_⟩
    rcases hn with hn | hn
    · rw [h.1] at hn; cases hn
    · rw [h.2] at hn; cases hn
  next h =>
    simp only [Bool.and_eq_true, groupBit, not_and] at h
    exact ⟨rfl, rfl, rfl, rfl, rfl, fun h1 h2 => absurd h2 (h h1), fun _ => ⟨hr.1, rfl⟩⟩

/-- R18, R20, R44, R137: a reception end that is not GOOD. -/
theorem State.receptionEnd_not_good (rx : Reception) {v : Classified} (h : v.cls ≠ .good) :
    (s.receptionEnd rx v).fault = { s.fault with spoiled := true }
      ∧ (s.receptionEnd rx v).line.reply = s.line.reply ∧ (s.receptionEnd rx v).line.turn = s.line.turn
      ∧ s.OnlyChanges (s.receptionEnd rx v) [.line, .fault, .store, .boxes, .refs, .completions, .queues, .engines]
      ∧ (s.NoLocalPending → s.OnlyChanges (s.receptionEnd rx v) [.line, .fault, .store]) := by
  have hs : ¬ s.syncsBy v = true := fun hs => h ((s.syncsBy_iff v).1 hs).2.1
  have hu := s.unanswered_of_not_good (rx := rx) h
  have hc := s.receptionCounted_only_of_not_syncs hs
  obtain ⟨hr, ht⟩ := hu.reply_turn
  refine ⟨?_, hr, by rw [ht, if_neg hs], (hc.mono (by decide)).seq hu.only (by decide),
    fun hn => hc.seq (hu.no_local hn).1 (by decide)⟩
  rw [hu.fault, s.receptionCounted_fault v, if_neg (fun hg => h hg.1)]

/-- R115, R29: a GOOD reception end that nobody answers. -/
theorem State.receptionEnd_unanswered {rx : Reception} {v : Classified} (hg : v.cls = .good) (h : s.Unanswered rx v) :
    (s.receptionEnd rx v).line.reply = s.line.reply ∧ (s.receptionEnd rx v).seq = s.seq
      ∧ (s.NoLocalPending → (s.receptionEnd rx v).queues = s.queues
          ∧ (s.receptionEnd rx v).store.holders = s.store.holders
          ∧ ∀ q, ((s.receptionEnd rx v).engine q).flags
              = { (s.engine q).flags with line := ((s.receptionEnd rx v).engine q).flags.line })
      ∧ (s.member.lineState ≠ .syncing →
          (s.receptionEnd rx v).line.turn = s.line.turn
          ∧ s.OnlyChanges (s.receptionEnd rx v) [.line, .store, .boxes, .refs, .completions, .queues, .engines]
          ∧ (s.NoLocalPending → s.OnlyChanges (s.receptionEnd rx v) [.line, .store])) := by
  obtain ⟨hr, ht⟩ := h.reply_turn
  refine ⟨hr, h.seq, fun hn => ?_, fun hl => ?_⟩
  · obtain ⟨ho, hh⟩ := h.no_local hn
    refine ⟨Eq.trans (ho.2 .queues (by decide)) ((s.receptionCounted_only v).2 .queues (by decide)), hh, fun q => ?_⟩
    rw [ho.engine (by decide) q, s.receptionCounted_engine v q]
    split <;> rfl
  · have hs : ¬ s.syncsBy v = true := fun hs => hl ((s.syncsBy_iff v).1 hs).1
    have hc := s.receptionCounted_only_of_good hg hs
    exact ⟨by rw [ht, if_neg hs], (hc.mono (by decide)).seq h.only (by decide),
      fun hn => (hc.mono (by decide)).seq (h.no_local hn).1 (by decide)⟩

/-- R12, R27: a GOOD reception end from another node in SYNCING. -/
theorem State.receptionEnd_syncs {rx : Reception} {v : Classified} (hs : s.syncsBy v = true) (h : s.Unanswered rx v) :
    (s.receptionEnd rx v).member.lineState = .active ∧ (s.receptionEnd rx v).line.turn = v.sender
      ∧ (s.receptionEnd rx v).fault = { s.fault with spoiled := true }
      ∧ (s.receptionEnd rx v).line.reply = s.line.reply ∧ (s.receptionEnd rx v).seq = s.seq
      ∧ ∀ q, ((s.receptionEnd rx v).engine q).flags.line = true := by
  obtain ⟨hr, ht⟩ := h.reply_turn
  refine ⟨by rw [s.receptionEnd_member, s.receptionCounted_member, if_pos hs], by rw [ht, if_pos hs], ?_, hr, h.seq,
    fun q => by rw [h.line_flag q, s.receptionCounted_engine v q, if_pos hs]⟩
  rw [h.fault, s.receptionCounted_fault v, if_neg (fun hg => hg.2 hs)]

/-- Settles O47: not GOOD, GOOD and not answered, GOOD in SYNCING from another node, and from the own address. -/
theorem receptionEndCountsErrorsAndSyncs : Obligations.ReceptionEndCountsErrorsAndSyncs := by
  intro s rx rest v hr hv he
  subst hv
  obtain ⟨h1, h2, h3, h4, h5, h6, h7⟩ := s.receptionEnd_line_writes (classify (rx.chars ++ rest)) hr
  refine ⟨_, execReceptionEnd_eq s rx rest hr he, h1, s.receptionEnd_rxSlot _ _, h2, h3, h4, h6, h7, fun hg => ?_,
    fun hg => ?_, fun hg hn => ?_, fun hg hl ha hd => ?_, fun hg hl ha hd => ?_⟩
  · exact ⟨by rw [h5]; exact countedErrors_toNat _ _, s.receptionEnd_not_good rx hg⟩
  · rw [h5, hg]
    rfl
  · refine s.receptionEnd_unanswered hg ?_
    rcases hn with ha | ⟨d, c, b, fr, hb, hd⟩
    · exact s.unanswered_of_not_active _ ha
    · exact s.unanswered_of_other rx hb hd
  · exact s.receptionEnd_syncs ((s.syncsBy_iff _).2 ⟨hl, hg, hd⟩) (s.unanswered_of_not_active _ ha)
  · have hs : ¬ s.syncsBy (classify (rx.chars ++ rest)) = true := fun hs => ((s.syncsBy_iff _).1 hs).2.2 hd
    refine ⟨by rw [s.receptionEnd_member, s.receptionCounted_member, if_neg hs, hl], ?_⟩
    rw [(s.unanswered_of_not_active _ ha).reply_turn.2, if_neg hs]

end Sys2Proof.Machine
end

section
/-! What a transmission end makes of the mailbox of its frame (R59, R60, R64, R71, R73): settled by the raw result, then
left alone by fault confinement, sequence unit, echo and local pass; withdrawn if it is HELD at entry to OFFLINE. -/

namespace Sys2Proof.Machine

/-! ## Settling -/

/-- R66: a completion, of a mailbox with the record and the attempts that it has in `s`. -/
theorem State.complete_completed {s u : State} {r : Ref} (o : MailOutcome) (c : Option ExpiryCause)
    (hr : (u.mailbox r).record = (s.mailbox r).record) (ha : (u.mailbox r).attempts = (s.mailbox r).attempts) :
    s.Completed (u.complete r o c) r o c := by
  unfold State.Completed
  rw [State.complete_mailbox, if_pos rfl, State.complete_refs, State.complete_completions, if_pos rfl,
    State.complete_engine, if_pos rfl]
  exact ⟨rfl, rfl, rfl, rfl, hr, ha, by simp, by simp, rfl⟩

theorem State.complete_lateAbort (u : State) (r : Ref) (o : MailOutcome) (c : Option ExpiryCause) :
    ((u.complete r o c).mailbox r).lateAbort = (u.mailbox r).lateAbort
      ∧ ((u.complete r o c).mailbox r).abortPending = (u.mailbox r).abortPending := by
  rw [State.complete_mailbox, if_pos rfl]
  exact ⟨rfl, rfl⟩

/-- The outcome of an attempt that has its effect (R59, R60). -/
def RawResult.outcome : RawResult → Option MailOutcome
  | .accept => some .accepted
  | .refuse => some .refused
  | .sentClean => some .sent
  | .defer | .noReply | .badReply | .collision => none

variable {s : State} {r : Ref}

theorem State.settle_sending {raw : RawResult} (h : (s.mailbox r).state = .sending)
    (ha : (s.mailbox r).abortPending = false) : s.settle r raw = s.settleAttempt r raw := by
  simp [State.settle, h, ha]

theorem State.settle_aborted {raw : RawResult} (h : (s.mailbox r).state = .sending)
    (ha : (s.mailbox r).abortPending = true) : s.settle r raw = s.settleAborted r raw := by
  simp [State.settle, h, ha]

theorem State.settle_retiring (raw : RawResult) (h : (s.mailbox r).state = .retiring) :
    (s.settle r raw).state = s.vacate r := by
  simp [State.settle, h]

/-- R59, R60: ACCEPT, REFUSE and SENT_CLEAN complete the mailbox. -/
theorem State.settleAttempt_done {raw : RawResult} {o : MailOutcome} (h : raw.outcome = some o) :
    (s.settleAttempt r raw).state = s.complete r o none := by
  cases raw <;> cases h <;> rfl

/-- R59: an attempt beyond the retry limit that failed: EXPIRED, with its cause. -/
theorem State.settleAttempt_expired {raw : RawResult} {rec : MailRecord} (h : raw.outcome = none)
    (hr : (s.mailbox r).record = some rec) (hl : rec.retryLimit.toNat < (s.mailbox r).attempts) :
    (s.settleAttempt r raw).state = s.complete r .expired raw.cause := by
  cases raw <;> cases h <;> simp [State.settleAttempt, hr, hl, State.completeUpd]

/-- R59: an attempt within the retry limit that failed: HELD. -/
theorem State.settleAttempt_held {raw : RawResult} {rec : MailRecord} (h : raw.outcome = none)
    (hr : (s.mailbox r).record = some rec) (hl : (s.mailbox r).attempts ≤ rec.retryLimit.toNat) :
    (s.settleAttempt r raw).state = s.putMailbox r { s.mailbox r with state := .held } := by
  have hn := Nat.not_lt.2 hl
  cases raw <;> cases h <;> simp [State.settleAttempt, hr, hn]

/-- R59: however the attempt is settled, late-abort stays. -/
theorem State.settleAttempt_lateAbort (raw : RawResult) :
    ((s.settleAttempt r raw).state.mailbox r).lateAbort = (s.mailbox r).lateAbort := by
  have hc : ∀ o c, ((s.completeUpd r o c).state.mailbox r).lateAbort = (s.mailbox r).lateAbort :=
    fun o c => (s.complete_lateAbort r o c).1
  cases raw with
  | accept | refuse | sentClean => exact hc _ _
  | defer | noReply | badReply | collision =>
    simp only [State.settleAttempt]
    split
    · exact hc _ _
    · simp

/-- The outcome of an attempt with abort-pending (R64). -/
def RawResult.abortedOutcome : RawResult → MailOutcome
  | .accept => .accepted
  | .refuse => .refused
  | .sentClean => .sent
  | .defer | .noReply | .badReply | .collision => .aborted

/-- R64: an attempt with abort-pending completes, whatever its result; late-abort tells that it had its effect. -/
theorem State.settleAborted_eq (raw : RawResult) :
    (s.settleAborted r raw).state
      = (s.putMailbox r { s.mailbox r with abortPending := false, lateAbort := raw.outcome.isSome }).complete r
          raw.abortedOutcome none := by
  cases raw <;> rfl

theorem State.settleAborted_completed (raw : RawResult) :
    s.Completed (s.settleAborted r raw).state r raw.abortedOutcome none
      ∧ ((s.settleAborted r raw).state.mailbox r).abortPending = false
      ∧ ((s.settleAborted r raw).state.mailbox r).lateAbort = raw.outcome.isSome := by
  rw [State.settleAborted_eq]
  refine ⟨State.complete_completed _ _ (by simp) (by simp), ?_, ?_⟩
  · rw [(State.complete_lateAbort _ _ _ _).2]; simp
  · rw [(State.complete_lateAbort _ _ _ _).1]; simp

/-! ## Units that leave the mailboxes -/

theorem State.raiseLine_leaves (s : State) (r : Ref) : s.Leaves s.raiseLine r :=
  .of_only s.raiseLine_only (by decide) (by decide) (by decide) (fun h => by rw [State.raiseLine_engine]; exact h)

theorem State.announceLine_leaves (b s : State) (r : Ref) : s.Leaves (State.announceLine b s) r := by
  unfold State.announceLine
  split
  · exact .refl s r
  · exact s.raiseLine_leaves r

/-- R39, R97: what the bank has settled, fault confinement and sequence unit leave. -/
theorem State.endSettled_leaves (s : State) (f : OwnFrame) (raw : RawResult) (r : Ref) :
    (s.frameOver.settle f.ref raw).state.Leaves (s.endSettled f raw).state r :=
  (State.appendHealth_leaves _ raw r).trans
    (.of_frame (State.settleOutbound_only _ f raw) (by decide) (by decide) (by decide) (by decide) r)

/-- A transmission end without SENT_CLEAN has no echo. -/
theorem State.endEchoed_of_ne (s : State) (f : OwnFrame) {raw : RawResult} (h : raw ≠ .sentClean) :
    s.endEchoed f raw = s.endSettled f raw := by
  simp [State.endEchoed, h]

/-! ## Entry to OFFLINE -/

theorem State.withdrawable_congr {s t : State} {r : Ref} (h : t.mailbox r = s.mailbox r) :
    t.withdrawable r = s.withdrawable r := by
  simp only [State.withdrawable, State.kind, h]

/-- R71: only QUEUED and HELD mailboxes are withdrawn. -/
theorem State.withdrawable_false {s : State} {r : Ref} (h : (s.mailbox r).state ≠ .queued)
    (h' : (s.mailbox r).state ≠ .held) : s.withdrawable r = false := by
  simp [State.withdrawable, h, h']

/-- One withdrawal (R71). -/
def State.withdrawOne (r : Ref) (s : State) : Upd :=
  if s.withdrawable r then s.completeUpd r .withdrawn none else .start s

theorem State.withdrawAll_eq (s : State) : s.withdrawAll = (Upd.start s).each s.sched.refs State.withdrawOne := rfl

/-- R71: the withdrawal of another mailbox, or of one that is not withdrawable, leaves `r`. -/
theorem State.withdrawOne_leaves {q : Ref} (h : s.withdrawable r = false ∨ q ≠ r) :
    s.Leaves (State.withdrawOne q s).state r := by
  unfold State.withdrawOne
  split
  next hw =>
    refine State.complete_leaves ?_ _ _
    rcases h with h | h
    · rintro rfl
      rw [h] at hw
      cases hw
    · exact Ne.symm h
  next => exact .refl s r

theorem Upd.each_withdrawOne_leaves (l : List Ref) (u : Upd) (h : u.state.withdrawable r = false) :
    u.state.Leaves (u.each l State.withdrawOne).state r :=
  Upd.each_inv (fun t => u.state.Leaves t r) l _
    (fun _ _ _ ht => ht.trans (State.withdrawOne_leaves (.inl ((State.withdrawable_congr ht.mailbox).trans h)))) u
    (.refl _ r)

/-- R71: a withdrawable mailbox of the list completes WITHDRAWN, once. -/
theorem Upd.each_withdrawOne_completes (l : List Ref) (u : Upd) (h : u.state.withdrawable r = true) (hr : r ∈ l) :
    u.state.Completed (u.each l State.withdrawOne).state r .withdrawn none := by
  induction l generalizing u with
  | nil => cases hr
  | cons q l ih =>
    rw [Upd.each_cons]
    by_cases hq : q = r
    · subst hq
      have e : (u.andThen (State.withdrawOne q)).state = u.state.complete q .withdrawn none := by
        rw [(Upd.andThen_parts _ _).1, State.withdrawOne, if_pos h]
        rfl
      have hc : u.state.Completed (u.andThen (State.withdrawOne q)).state q .withdrawn none := by
        rw [e]
        exact State.complete_completed _ _ rfl rfl
      have hn : (u.andThen (State.withdrawOne q)).state.withdrawable q = false :=
        State.withdrawable_false (by rw [hc.1]; decide) (by rw [hc.1]; decide)
      exact hc.leaves (Upd.each_withdrawOne_leaves l _ hn)
    · have hl : u.state.Leaves (u.andThen (State.withdrawOne q)).state r := State.withdrawOne_leaves (.inr hq)
      obtain ⟨h1, h2, h3, h4, h5, h6, h7, h8, h9⟩ := ih (u.andThen (State.withdrawOne q))
        ((State.withdrawable_congr hl.mailbox).trans h) ((List.mem_cons.1 hr).resolve_left (Ne.symm hq))
      rw [hl.mailbox] at h5 h6
      exact ⟨h1, h2, h3, h4, h5, h6, h7, h8, h9⟩

/-- R29, R30: entry to OFFLINE at a transmission end is the line unit's and the bank's, then the clean rounds and LINE. -/
theorem State.leaveAtEnd_leaving (s : State) (h : s.member.lineState = .leaving) :
    s.leaveAtEnd.state
      = State.announceLine s
          ((s.putLineState .offline).lineOffline.andThen State.withdrawAll |>.state |>.putFault
            { ((s.putLineState .offline).lineOffline.andThen State.withdrawAll).state.fault with cleanRounds := 0 }) := by
  simp only [State.leaveAtEnd, h, beq_self_eq_true, if_true, State.moveLineState]
  rfl

theorem State.lineOffline_leaves (s : State) (r : Ref) : s.Leaves (s.putLineState .offline).lineOffline.state r :=
  .of_frame (((s.putLineState_only .offline).mono (by decide)).seq (m := [.store, .line])
    (l := [.lineState, .store, .line]) (State.lineOffline_only _) (by decide))
    (by decide) (by decide) (by decide) (by decide) r

theorem State.lineOffline_refs (s : State) :
    (s.putLineState .offline).lineOffline.state.sched.refs = s.sched.refs :=
  (State.lineOffline_only (s.putLineState .offline)).2 .refs (by decide)

/-- What comes after the withdrawals leaves the mailboxes. -/
theorem State.leaveAtEnd_tail_leaves (b u : State) (n : Nat) (r : Ref) :
    u.Leaves (State.announceLine b (u.putFault { u.fault with cleanRounds := n })) r :=
  State.Leaves.trans (t := u.putFault { u.fault with cleanRounds := n })
    (.of_frame (u.putFault_only _) (by decide) (by decide) (by decide) (by decide) r) (State.announceLine_leaves b _ r)

/-- R29, R71: the membership unit leaves a mailbox that is not withdrawable. -/
theorem State.leaveAtEnd_leaves (h : s.withdrawable r = false) : s.Leaves s.leaveAtEnd.state r := by
  by_cases hl : s.member.lineState = .leaving
  · have ho := s.lineOffline_leaves r
    rw [s.leaveAtEnd_leaving hl]
    exact (ho.trans (Upd.each_withdrawOne_leaves _ (Upd.start _)
      ((State.withdrawable_congr ho.mailbox).trans h))).trans (State.leaveAtEnd_tail_leaves s _ 0 r)
  · rw [State.leaveAtEnd_stay s hl]
    exact .refl s r

/-- R29, R71: in LEAVING it withdraws one that is, if it is on the pending list. -/
theorem State.leaveAtEnd_withdraws (h : s.withdrawable r = true) (hl : s.member.lineState = .leaving)
    (hr : r ∈ s.sched.refs) : s.Completed s.leaveAtEnd.state r .withdrawn none := by
  have ho := s.lineOffline_leaves r
  have hc := Upd.each_withdrawOne_completes (s.putLineState .offline).lineOffline.state.sched.refs
    (Upd.start (s.putLineState .offline).lineOffline.state) ((State.withdrawable_congr ho.mailbox).trans h)
    (by rw [s.lineOffline_refs]; exact hr)
  rw [s.leaveAtEnd_leaving hl]
  obtain ⟨h1, h2, h3, h4, h5, h6, h7, h8, h9⟩ := hc.leaves (State.leaveAtEnd_tail_leaves s _ 0 r)
  refine ⟨h1, h2, h3, h4, h5.trans ?_, h6.trans ?_, h7, h8, h9⟩
  · exact congrArg Mailbox.record ho.mailbox
  · exact congrArg Mailbox.attempts ho.mailbox

end Sys2Proof.Machine
end

section
/-! Appends, losses and echoes at the ports (R129, R132, R141 to R144): of an engine they write RX and LOSS alone, each at
its own port, and no slot's bytes but those of the echo. -/

namespace Sys2Proof.Machine

/-! ## Engines -/

/-- Of every engine RX and LOSS at the most have changed. -/
def State.OnlyRxLoss (s t : State) : Prop :=
  ∀ q, ∃ x y, t.engine q = { s.engine q with flags := { (s.engine q).flags with rx := x, loss := y } }

theorem State.OnlyRxLoss.refl (s : State) : s.OnlyRxLoss s := fun _ => ⟨_, _, rfl⟩

theorem State.OnlyRxLoss.trans {s t u : State} (h : s.OnlyRxLoss t) (g : t.OnlyRxLoss u) : s.OnlyRxLoss u := by
  intro q
  obtain ⟨x, y, e⟩ := h q
  obtain ⟨x', y', e'⟩ := g q
  exact ⟨x', y', by rw [e', e]⟩

theorem State.OnlyRxLoss.leaves {s t : State} {l : List Part} (h : s.OnlyRxLoss t) (hf : s.OnlyChanges t l)
    (hb : Part.boxes ∉ l) (hr : Part.refs ∉ l) (hc : Part.completions ∉ l) (r : Ref) : s.Leaves t r :=
  .of_only hf hb hr hc (fun ht => by
    obtain ⟨x, y, e⟩ := h r.port
    rw [e]
    exact ht)

theorem State.appendRecord_onlyRxLoss (s : State) (p : Port) (d : Delivery) : s.OnlyRxLoss (s.appendRecord p d) := by
  intro q
  rw [State.appendRecord_engine]
  split
  next h => rw [h]; exact ⟨_, _, rfl⟩
  next => exact ⟨_, _, rfl⟩

theorem State.countLoss_onlyRxLoss (s : State) (p : Port) (n : Nat) : s.OnlyRxLoss (s.countLoss p n) := by
  intro q
  rw [State.countLoss_engine]
  split
  next h => rw [h]; exact ⟨_, _, rfl⟩
  next => exact ⟨_, _, rfl⟩

/-- R142: what a displacement writes at the ports. -/
theorem State.displace_queue (s : State) (p q : Port) (tail : QueueRecord) (d : Delivery) :
    (s.displace p tail d).state.queue q
      = if q = p then
          { s.queue p with
            records := (s.queue p).records.dropLast
              ++ [d.record (min 255 ((s.queue p).pendingLosses + (1 + tail.lossesBefore)))],
            pendingLosses := 0 }
        else s.queue q := by
  have hu : ∀ (t : State) (i : SlotNo), (t.unhold i).queue = t.queue := fun _ _ => rfl
  have hl : ∀ t : State, (t.raiseLoss p).queue = t.queue := fun _ => rfl
  simp only [State.displace, State.appendRecord_queue, hl, State.countLoss_queue, hu, State.putQueue_queue, if_true]
  split <;> rfl

/-- R142, R144: of the engines, a displacement writes RX and LOSS at its port. -/
theorem State.displace_engine (s : State) (p q : Port) (tail : QueueRecord) (d : Delivery) :
    (s.displace p tail d).state.engine q
      = if q = p then { s.engine p with flags := { (s.engine p).flags with rx := true, loss := true } }
        else s.engine q := by
  have hu : ∀ (t : State) (i : SlotNo), (t.unhold i).engine = t.engine := fun _ _ => rfl
  simp only [State.displace, State.appendRecord_engine, State.raiseLoss_engine, State.countLoss_engine, hu,
    (State.putQueue_views _ _ _).1, if_true]
  split <;> rfl

theorem State.displace_onlyRxLoss (s : State) (p : Port) (tail : QueueRecord) (d : Delivery) :
    s.OnlyRxLoss (s.displace p tail d).state := by
  intro q
  rw [State.displace_engine]
  split
  next h => rw [h]; exact ⟨_, _, rfl⟩
  next => exact ⟨_, _, rfl⟩

/-- R141, R142: an append takes the record, displaces the tail, or counts a loss. -/
theorem State.offer_cases (s : State) (p : Port) (d : Delivery) :
    (s.offer p d).state = s.appendRecord p d
      ∨ (∃ tail, (s.offer p d).state = (s.displace p tail d).state)
      ∨ (s.offer p d).state = s.countLoss p 1 := by
  unfold State.offer
  simp only []
  split
  · exact .inl rfl
  · split
    next tail _ _ _ => exact .inr (.inl ⟨tail, rfl⟩)
    next => exact .inr (.inr rfl)

theorem State.offer_onlyRxLoss (s : State) (p : Port) (d : Delivery) : s.OnlyRxLoss (s.offer p d).state := by
  rcases s.offer_cases p d with e | ⟨tail, e⟩ | e
  · rw [e]; exact s.appendRecord_onlyRxLoss p d
  · rw [e]; exact s.displace_onlyRxLoss p tail d
  · rw [e]; exact s.countLoss_onlyRxLoss p 1

/-- An append at another port leaves queue and engine. -/
theorem State.offer_other (s : State) {p q : Port} (d : Delivery) (h : q ≠ p) :
    (s.offer p d).state.queue q = s.queue q ∧ (s.offer p d).state.engine q = s.engine q := by
  rcases s.offer_cases p d with e | ⟨tail, e⟩ | e
  · rw [e, State.appendRecord_queue, State.appendRecord_engine, if_neg h, if_neg h]; exact ⟨rfl, rfl⟩
  · rw [e, State.displace_queue, State.displace_engine, if_neg h, if_neg h]; exact ⟨rfl, rfl⟩
  · rw [e, State.countLoss_queue, State.countLoss_engine, if_neg h, if_neg h]; exact ⟨rfl, rfl⟩

theorem State.countLoss_other (s : State) {p q : Port} (n : Nat) (h : q ≠ p) :
    (s.countLoss p n).queue q = s.queue q ∧ (s.countLoss p n).engine q = s.engine q := by
  rw [State.countLoss_queue, State.countLoss_engine, if_neg h, if_neg h]
  exact ⟨rfl, rfl⟩

/-- An append writes no slot's bytes. -/
theorem State.offer_bytes (s : State) (p : Port) (d : Delivery) :
    (s.offer p d).state.store.bytes = s.store.bytes := by
  rcases s.offer_cases p d with e | ⟨tail, e⟩ | e
  · rw [e]; rfl
  · rw [e]
    simp only [State.displace, State.appendRecord_store]
    exact Eq.trans (congrArg FrameStore.bytes (State.countLoss_store _ p _)) rfl
  · rw [e, State.countLoss_store]

/-- An append at `p` is made from the queue and the engine of `p` alone; a LINE flag is carried along. -/
theorem State.offer_congr {s t : State} {p : Port} {x : Bool} (d : Delivery) (hq : t.queue p = s.queue p)
    (he : t.engine p = { s.engine p with flags := { (s.engine p).flags with line := x } }) :
    (t.offer p d).state.queue p = (s.offer p d).state.queue p
      ∧ (t.offer p d).state.engine p
        = { (s.offer p d).state.engine p with
            flags := { ((s.offer p d).state.engine p).flags with line := x } } := by
  unfold State.offer
  rw [hq]
  simp only []
  split
  · simp [he, hq]
  · split
    next tail _ _ _ =>
      rw [State.displace_queue, State.displace_queue, State.displace_engine, State.displace_engine, hq, he]
      simp
    next => simp [he, hq]

/-! ## Echoes -/

theorem State.loseGroupAt_onlyRxLoss (g : GroupId) (p : Port) (s : State) :
    s.OnlyRxLoss (State.loseGroupAt g p s).state := by
  unfold State.loseGroupAt
  split
  · exact s.countLoss_onlyRxLoss p 1
  · exact .refl s

theorem State.echoAt_onlyRxLoss (q : Port) (g : GroupId) (n : Nat) (i : SlotNo) (p : Port) (s : State) :
    s.OnlyRxLoss (State.echoAt q g n i p s).state := by
  unfold State.echoAt
  split
  · exact s.offer_onlyRxLoss p _
  · exact .refl s

/-- R132: of the engines, an echo writes RX and LOSS. -/
theorem State.echo_onlyRxLoss (s : State) (q : Port) (g : GroupId) (b : List Byte) :
    s.OnlyRxLoss (s.echo q g b).state := by
  unfold State.echo
  simp only []
  split
  · split
    · exact Upd.each_inv s.OnlyRxLoss _ _ (fun p _ u hu => hu.trans (State.loseGroupAt_onlyRxLoss g p u)) _ (.refl s)
    next i _ =>
      exact Upd.each_inv s.OnlyRxLoss _ _ (fun p _ u hu => hu.trans (State.echoAt_onlyRxLoss q g b.length i p u)) _
        (.refl s)
  · exact .refl s

theorem State.echo_leaves (s : State) (q : Port) (g : GroupId) (b : List Byte) (r : Ref) :
    s.Leaves (s.echo q g b).state r :=
  (s.echo_onlyRxLoss q g b).leaves (s.echo_only q g b) (by decide) (by decide) (by decide) r

theorem State.drawn_leaves (s : State) (r : Ref) : s.Leaves s.drawn r :=
  .of_frame s.drawn_only (by decide) (by decide) (by decide) (by decide) r

/-- R132, R133: the acceptance table takes SENT_CLEAN: the echo is made, before or after the local pass (log 8). -/
theorem Upd.echo_cases (u : Upd) (f : OwnFrame) :
    (u.echo f).state = u.state
      ∨ ∃ g v, f.body = .group g ∧ (v = u.state.drawn ∨ v = (u.state.localPass u.space).drawn)
        ∧ (u.echo f).state = (v.echo f.ref.port g f.payload).state := by
  unfold Upd.echo
  split
  · exact .inl rfl
  next g hg =>
    refine .inr ⟨g, ?_⟩
    simp only []
    split
    · exact ⟨_, hg, .inr rfl, rfl⟩
    · exact ⟨_, hg, .inl rfl, rfl⟩

theorem Upd.echo_leaves {u : Upd} {r : Ref} (f : OwnFrame) (h : u.state.Undecided r) :
    u.state.Leaves (u.echo f).state r := by
  rcases u.echo_cases f with e | ⟨g, v, -, hv, e⟩
  · rw [e]; exact .refl _ r
  · have hl : u.state.Leaves v r := by
      rcases hv with rfl | rfl
      · exact State.drawn_leaves _ r
      · exact (State.localPass_leaves u.space h).trans (State.drawn_leaves _ r)
    rw [e]
    exact hl.trans (v.echo_leaves f.ref.port g f.payload r)

/-! ## What a transmission end leaves -/

variable {s : State} {r : Ref}

theorem State.withdrawable_eq_false_of_leaves {u v : State} (h : u.Leaves v r) (hw : u.withdrawable r = false) :
    v.withdrawable r = false := (State.withdrawable_congr h.mailbox).trans hw

/-- After the bank has settled, the units before the membership unit leave the mailbox. -/
theorem State.endEchoed_leaves (f : OwnFrame) (raw : RawResult)
    (hu : (s.frameOver.settle f.ref raw).state.Undecided r) :
    (s.frameOver.settle f.ref raw).state.Leaves (s.endEchoed f raw).state r := by
  have hs := s.endSettled_leaves f raw r
  unfold State.endEchoed
  split
  · exact hs.trans (Upd.echo_leaves f (hu.of_mailbox hs.mailbox))
  · exact hs

/-- After the bank has settled, a mailbox that is not withdrawable, and that no pass decides, is left alone. -/
theorem State.transmissionEnd_leaves (f : OwnFrame) (raw : RawResult)
    (hu : (s.frameOver.settle f.ref raw).state.Undecided r)
    (hw : (s.frameOver.settle f.ref raw).state.withdrawable r = false) :
    (s.frameOver.settle f.ref raw).state.Leaves (s.transmissionEnd f raw) r := by
  have h1 := State.endEchoed_leaves f raw hu
  have h2 := h1.trans (State.leaveAtEnd_leaves (State.withdrawable_eq_false_of_leaves h1 hw))
  exact h2.trans (Upd.finish_leaves (u := (s.endEchoed f raw).andThen State.leaveAtEnd) (hu.of_mailbox h2.mailbox))

/-- Outside LEAVING nothing is withdrawn. -/
theorem State.transmissionEnd_leaves_stay (f : OwnFrame) (raw : RawResult) (hl : s.member.lineState ≠ .leaving)
    (hu : (s.frameOver.settle f.ref raw).state.Undecided r) :
    (s.frameOver.settle f.ref raw).state.Leaves (s.transmissionEnd f raw) r := by
  have h1 := State.endEchoed_leaves f raw hu
  rw [s.transmissionEnd_stay f raw hl]
  exact h1.trans (Upd.finish_leaves (hu.of_mailbox h1.mailbox))

/-- A mailbox that is DONE or VACANT is neither decided by a pass nor withdrawn. -/
theorem State.transmissionEnd_leaves_settled (f : OwnFrame) (raw : RawResult)
    (h : ((s.frameOver.settle f.ref raw).state.mailbox r).state = .done
      ∨ ((s.frameOver.settle f.ref raw).state.mailbox r).state = .vacant) :
    (s.frameOver.settle f.ref raw).state.Leaves (s.transmissionEnd f raw) r := by
  rcases h with h | h <;>
    exact State.transmissionEnd_leaves f raw (.of_state (by rw [h]; decide) (by rw [h]; decide))
      (State.withdrawable_false (by rw [h]; decide) (by rw [h]; decide))

/-- What the bank completes at a transmission end is complete after it. -/
theorem State.transmissionEnd_completed {f : OwnFrame} {raw : RawResult} {o : MailOutcome} {c : Option ExpiryCause}
    (h : s.Completed (s.frameOver.settle f.ref raw).state f.ref o c) :
    s.Completed (s.transmissionEnd f raw) f.ref o c :=
  h.leaves (State.transmissionEnd_leaves_settled f raw (.inl h.1))

/-! ## The mailbox of the frame -/

/-- R59, R60: an attempt that has its effect completes the mailbox. -/
theorem State.transmissionEnd_done {f : OwnFrame} {raw : RawResult} {o : MailOutcome} (ho : raw.outcome = some o)
    (h : (s.mailbox f.ref).state = .sending) (ha : (s.mailbox f.ref).abortPending = false) :
    s.Completed (s.transmissionEnd f raw) f.ref o none :=
  State.transmissionEnd_completed (by
    rw [State.settle_sending (s := s.frameOver) h ha, State.settleAttempt_done ho]
    exact State.complete_completed _ _ rfl rfl)

/-- R59: one that failed beyond the retry limit expires it. -/
theorem State.transmissionEnd_expired {f : OwnFrame} {raw : RawResult} {rec : MailRecord} (ho : raw.outcome = none)
    (h : (s.mailbox f.ref).state = .sending) (ha : (s.mailbox f.ref).abortPending = false)
    (hr : (s.mailbox f.ref).record = some rec) (hl : rec.retryLimit.toNat < (s.mailbox f.ref).attempts) :
    s.Completed (s.transmissionEnd f raw) f.ref .expired raw.cause :=
  State.transmissionEnd_completed (by
    rw [State.settle_sending (s := s.frameOver) h ha, State.settleAttempt_expired (s := s.frameOver) ho hr hl]
    exact State.complete_completed _ _ rfl rfl)

/-- R64: with abort-pending it completes, whatever came. -/
theorem State.transmissionEnd_aborted {f : OwnFrame} (raw : RawResult) (h : (s.mailbox f.ref).state = .sending)
    (ha : (s.mailbox f.ref).abortPending = true) :
    s.Completed (s.transmissionEnd f raw) f.ref raw.abortedOutcome none
      ∧ ((s.transmissionEnd f raw).mailbox f.ref).abortPending = false
      ∧ ((s.transmissionEnd f raw).mailbox f.ref).lateAbort = raw.outcome.isSome := by
  have hs := State.settleAborted_completed (s := s.frameOver) (r := f.ref) raw
  rw [← State.settle_aborted (s := s.frameOver) h ha] at hs
  obtain ⟨hc, hp, hl⟩ := hs
  have hc' : s.Completed (s.frameOver.settle f.ref raw).state f.ref raw.abortedOutcome none := hc
  rw [(State.transmissionEnd_leaves_settled f raw (.inl hc.1)).mailbox]
  exact ⟨State.transmissionEnd_completed hc', hp, hl⟩

/-- R73: a RETIRING mailbox becomes VACANT. -/
theorem State.transmissionEnd_retired {f : OwnFrame} (raw : RawResult) (h : (s.mailbox f.ref).state = .retiring) :
    (s.transmissionEnd f raw).mailbox f.ref = Mailbox.vacant
      ∧ f.ref ∉ (s.transmissionEnd f raw).sched.refs := by
  have e := State.settle_retiring (s := s.frameOver) raw h
  have hm : (s.frameOver.settle f.ref raw).state.mailbox f.ref = Mailbox.vacant := by
    rw [e, State.vacate_mailbox, if_pos rfl]
  have hl := State.transmissionEnd_leaves_settled f raw (.inr (by rw [hm]; rfl))
  refine ⟨hl.mailbox.trans hm, hl.refs ?_⟩
  rw [e, State.vacate_refs]
  simp

/-- The bank's answer to a failed attempt within the retry limit. -/
theorem State.settle_held {f : OwnFrame} {raw : RawResult} {rec : MailRecord} (ho : raw.outcome = none)
    (h : (s.mailbox f.ref).state = .sending) (ha : (s.mailbox f.ref).abortPending = false)
    (hr : (s.mailbox f.ref).record = some rec) (hl : (s.mailbox f.ref).attempts ≤ rec.retryLimit.toNat) :
    (s.frameOver.settle f.ref raw).state = s.frameOver.putMailbox f.ref { s.mailbox f.ref with state := .held } := by
  rw [State.settle_sending (s := s.frameOver) h ha, State.settleAttempt_held (s := s.frameOver) ho hr hl]
  rfl

/-- R59, R61: one that failed within the retry limit holds the mailbox. -/
theorem State.transmissionEnd_held {f : OwnFrame} {raw : RawResult} {rec : MailRecord} (ho : raw.outcome = none)
    (h : (s.mailbox f.ref).state = .sending) (ha : (s.mailbox f.ref).abortPending = false)
    (hr : (s.mailbox f.ref).record = some rec) (hl : (s.mailbox f.ref).attempts ≤ rec.retryLimit.toNat)
    (hst : s.member.lineState ≠ .leaving) :
    (s.transmissionEnd f raw).mailbox f.ref = { s.mailbox f.ref with state := .held } := by
  have hm : (s.frameOver.settle f.ref raw).state.mailbox f.ref = { s.mailbox f.ref with state := .held } := by
    rw [State.settle_held ho h ha hr hl, State.putMailbox_mailbox, if_pos rfl]
  have hu : (s.frameOver.settle f.ref raw).state.Undecided f.ref :=
    .of_state (by rw [hm]; exact fun e => by cases e) (by rw [hm]; exact fun e => by cases e)
  exact (State.transmissionEnd_leaves_stay f raw hst hu).mailbox.trans hm

/-- R71: one that is held in LEAVING is withdrawn. -/
theorem State.transmissionEnd_withdrawn {f : OwnFrame} {raw : RawResult} {rec : MailRecord} (ho : raw.outcome = none)
    (h : (s.mailbox f.ref).state = .sending) (ha : (s.mailbox f.ref).abortPending = false)
    (hr : (s.mailbox f.ref).record = some rec) (hk : rec.kind ≠ .localHandOff)
    (hl : (s.mailbox f.ref).attempts ≤ rec.retryLimit.toNat) (hst : s.member.lineState = .leaving)
    (hin : f.ref ∈ s.sched.refs) : s.Completed (s.transmissionEnd f raw) f.ref .withdrawn none := by
  have e := State.settle_held ho h ha hr hl
  have hm : (s.frameOver.settle f.ref raw).state.mailbox f.ref = { s.mailbox f.ref with state := .held } := by
    rw [e, State.putMailbox_mailbox, if_pos rfl]
  have hu : (s.frameOver.settle f.ref raw).state.Undecided f.ref :=
    .of_state (by rw [hm]; exact fun e => by cases e) (by rw [hm]; exact fun e => by cases e)
  have hse : raw ≠ .sentClean := by rintro rfl; cases ho
  have hle := State.endEchoed_leaves f raw hu
  have hrefs : (s.endEchoed f raw).state.sched.refs = s.sched.refs := by
    rw [s.endEchoed_of_ne f hse]
    refine Eq.trans (b := (s.frameOver.settle f.ref raw).state.sched.refs) ?_ (by rw [e]; rfl)
    exact Eq.trans ((State.settleOutbound_only _ f raw).2 .refs (by decide))
      ((State.appendHealth_only _ raw).2 .refs (by decide))
  have hwd : (s.endEchoed f raw).state.withdrawable f.ref = true := by
    simp only [State.withdrawable, State.kind, hle.mailbox, hm, hr]
    cases hkind : rec.kind with
    | localHandOff => exact absurd hkind hk
    | remote => simp [hkind]
    | group => simp [hkind]
  have hc := State.leaveAtEnd_withdraws hwd (by rw [s.endEchoed_member f raw, hst]) (by rw [hrefs]; exact hin)
  have hc' : s.Completed (s.endEchoed f raw).state.leaveAtEnd.state f.ref .withdrawn none := by
    obtain ⟨h1, h2, h3, h4, h5, h6, h7, h8, h9⟩ := hc
    rw [hle.mailbox, hm] at h5 h6
    exact ⟨h1, h2, h3, h4, h5, h6, h7, h8, h9⟩
  exact hc'.leaves (Upd.finish_leaves (u := (s.endEchoed f raw).andThen State.leaveAtEnd)
    (.of_state (by rw [(Upd.andThen_parts _ _).1, hc.1]; decide) (by rw [(Upd.andThen_parts _ _).1, hc.1]; decide)))

/-! ## Late-abort -/

/-- Late-abort of the mailbox is as it was. -/
def State.SameLateAbort (s t : State) (r : Ref) : Prop := (t.mailbox r).lateAbort = (s.mailbox r).lateAbort

theorem State.SameLateAbort.trans {s t u : State} {r : Ref} (h : s.SameLateAbort t r) (g : t.SameLateAbort u r) :
    s.SameLateAbort u r := Eq.trans g h

theorem State.Leaves.sameLateAbort {s t : State} {r : Ref} (h : s.Leaves t r) : s.SameLateAbort t r :=
  congrArg Mailbox.lateAbort h.mailbox

theorem State.complete_sameLateAbort (s : State) (q r : Ref) (o : MailOutcome) (c : Option ExpiryCause) :
    s.SameLateAbort (s.complete q o c) r := by
  unfold State.SameLateAbort
  rw [State.complete_mailbox]
  split
  next h => rw [h]
  next => rfl

theorem State.handOff_sameLateAbort (s : State) (q r : Ref) (rec : MailRecord) (p : Port) (i : SlotNo) :
    s.SameLateAbort (s.handOff q rec p i) r :=
  have hw : s.SameLateAbort (s.writeSlot i rec.payload) r := rfl
  (hw.trans (State.appendRecord_leaves (s.writeSlot i rec.payload) p _ r).sameLateAbort).trans
    (State.complete_sameLateAbort _ q r .accepted none)

theorem State.passAt_sameLateAbort (retry : Bool) (s : State) (q r : Ref) :
    s.SameLateAbort (State.passAt retry s q) r := by
  rcases State.passAt_cases retry s q with e | ⟨-, -, e | ⟨rec, p, i, e⟩ | e⟩
  · rw [e]; rfl
  · unfold State.SameLateAbort
    rw [e, State.waitForSpace, State.putMailbox_mailbox]
    split
    next h => rw [h]
    next => rfl
  · rw [e]
    exact s.handOff_sameLateAbort q r rec p i
  · rw [e]; exact s.complete_sameLateAbort q r _ _

theorem State.localPass_sameLateAbort (retry : Bool) (s : State) (r : Ref) : s.SameLateAbort (s.localPass retry) r :=
  State.localPass_keeps (P := fun u => s.SameLateAbort u r) retry
    (fun u q hu => Eq.trans (State.passAt_sameLateAbort retry u q r) hu) rfl

theorem Upd.finish_sameLateAbort (u : Upd) (r : Ref) : u.state.SameLateAbort u.finish r := by
  unfold Upd.finish
  split
  · exact u.state.localPass_sameLateAbort true r
  · split
    · exact u.state.localPass_sameLateAbort false r
    · rfl

theorem State.withdrawOne_sameLateAbort (s : State) (q r : Ref) : s.SameLateAbort (State.withdrawOne q s).state r := by
  unfold State.withdrawOne
  split
  · exact s.complete_sameLateAbort q r _ _
  · rfl

theorem State.leaveAtEnd_sameLateAbort (s : State) (r : Ref) : s.SameLateAbort s.leaveAtEnd.state r := by
  by_cases hl : s.member.lineState = .leaving
  · have ho := (s.lineOffline_leaves r).sameLateAbort
    have hw : (s.putLineState .offline).lineOffline.state.SameLateAbort
        ((s.putLineState .offline).lineOffline.andThen State.withdrawAll).state r :=
      Upd.each_keeps (fun t => (t.mailbox r).lateAbort) _ State.withdrawOne
        (fun q _ t => t.withdrawOne_sameLateAbort q r) (Upd.start (s.putLineState .offline).lineOffline.state)
    rw [s.leaveAtEnd_leaving hl]
    exact (ho.trans hw).trans (State.leaveAtEnd_tail_leaves s _ 0 r).sameLateAbort
  · rw [State.leaveAtEnd_stay s hl]
    rfl

theorem Upd.echo_sameLateAbort (u : Upd) (f : OwnFrame) (r : Ref) : u.state.SameLateAbort (u.echo f).state r := by
  rcases u.echo_cases f with e | ⟨g, v, -, hv, e⟩
  · rw [e]; rfl
  · have hl : u.state.SameLateAbort v r := by
      rcases hv with rfl | rfl
      · rfl
      · exact State.localPass_sameLateAbort _ _ r
    rw [e]
    exact hl.trans (v.echo_leaves f.ref.port g f.payload r).sameLateAbort

theorem State.endEchoed_sameLateAbort (s : State) (f : OwnFrame) (raw : RawResult) (r : Ref) :
    (s.endSettled f raw).state.SameLateAbort (s.endEchoed f raw).state r := by
  unfold State.endEchoed
  split
  · exact (s.endSettled f raw).echo_sameLateAbort f r
  · rfl

/-- R59: an attempt without abort-pending leaves late-abort. -/
theorem State.transmissionEnd_lateAbort {f : OwnFrame} (raw : RawResult)
    (h : (s.mailbox f.ref).state = .sending) (ha : (s.mailbox f.ref).abortPending = false) :
    s.SameLateAbort (s.transmissionEnd f raw) f.ref := by
  have h1 : s.SameLateAbort (s.frameOver.settle f.ref raw).state f.ref := by
    rw [State.settle_sending (s := s.frameOver) h ha]
    exact State.settleAttempt_lateAbort (s := s.frameOver) raw
  have h2 := (h1.trans (s.endSettled_leaves f raw f.ref).sameLateAbort).trans (s.endEchoed_sameLateAbort f raw f.ref)
  have h3 := h2.trans ((s.endEchoed f raw).state.leaveAtEnd_sameLateAbort f.ref)
  rw [s.transmissionEnd_eq]
  exact h3.trans (Upd.finish_sameLateAbort ((s.endEchoed f raw).andThen State.leaveAtEnd) f.ref)

end Sys2Proof.Machine
end

section
/-! O52: the end of the reply window of an own ADDRESSED frame (R4, R15): fault confinement (R39), sequence unit (R97),
line unit and membership unit (R29), and the mailbox. -/

namespace Sys2Proof.Machine

variable (s : State)

/-! ## Fault confinement -/

/-- R39, R40: the fault confinement unit takes a result by its own state alone. -/
theorem State.appendHealth_fault_congr {s t : State} (h : t.fault = s.fault) (raw : RawResult) :
    (t.appendHealth raw).fault = (s.appendHealth raw).fault := by
  unfold State.appendHealth
  rw [h]
  simp only []
  split <;> rw [State.confine_fault, State.confine_fault]

/-- R39: the fault confinement unit after the end of an own frame, before the membership unit. -/
theorem State.endEchoed_fault (f : OwnFrame) (raw : RawResult) :
    (s.endEchoed f raw).state.fault = (s.appendHealth raw).fault := by
  have hsettle : (s.frameOver.settle f.ref raw).state.fault = s.fault :=
    (State.settle_only s.frameOver f.ref raw).2 .fault (by decide)
  have hs : (s.endSettled f raw).state.fault = (s.appendHealth raw).fault :=
    Eq.trans ((State.settleOutbound_only _ f raw).2 .fault (by decide)) (State.appendHealth_fault_congr hsettle raw)
  unfold State.endEchoed
  split
  · exact Eq.trans ((Upd.echo_only_parts _ f).2 .fault (by decide)) hs
  · exact hs

/-- R30: entry to OFFLINE sets the clean-round count to 0, and leaves the rest of the fault confinement unit. -/
theorem State.leaveAtEnd_fault (h : s.member.lineState = .leaving) :
    s.leaveAtEnd.state.fault = { s.fault with cleanRounds := 0 } := by
  have h1 : (s.putLineState .offline).lineOffline.state.fault = s.fault :=
    (State.lineOffline_only (s.putLineState .offline)).2 .fault (by decide)
  have h2 : ((s.putLineState .offline).lineOffline.andThen State.withdrawAll).state.fault = s.fault :=
    Eq.trans ((State.withdrawAll_only _).2 .fault (by decide)) h1
  rw [s.leaveAtEnd_leaving h]
  refine Eq.trans ((State.announceLine_only _ s).2 .fault (by decide)) ?_
  rw [State.putFault_fault, h2]

theorem State.transmissionEnd_fault_stay (f : OwnFrame) (raw : RawResult) (h : s.member.lineState ≠ .leaving) :
    (s.transmissionEnd f raw).fault = (s.appendHealth raw).fault := by
  rw [s.transmissionEnd_stay f raw h]
  exact Eq.trans ((s.endEchoed f raw).finish_only.2 .fault (by decide)) (s.endEchoed_fault f raw)

theorem State.transmissionEnd_fault_leave (f : OwnFrame) (raw : RawResult) (h : s.member.lineState = .leaving) :
    (s.transmissionEnd f raw).fault = { (s.appendHealth raw).fault with cleanRounds := 0 } := by
  have hl : (s.endEchoed f raw).state.member.lineState = .leaving := by rw [s.endEchoed_member f raw, h]
  rw [s.transmissionEnd_eq]
  refine Eq.trans (((s.endEchoed f raw).andThen State.leaveAtEnd).finish_only.2 .fault (by decide)) ?_
  rw [(Upd.andThen_parts _ _).1, State.leaveAtEnd_fault _ hl, s.endEchoed_fault f raw]

/-- R39, R40: window and state take the result, in every line state. -/
theorem State.transmissionEnd_window (f : OwnFrame) (raw : RawResult) :
    (s.transmissionEnd f raw).fault.window = (s.appendHealth raw).fault.window
      ∧ (s.transmissionEnd f raw).fault.state = (s.appendHealth raw).fault.state := by
  by_cases h : s.member.lineState = .leaving
  · rw [s.transmissionEnd_fault_leave f raw h]
    exact ⟨rfl, rfl⟩
  · rw [s.transmissionEnd_fault_stay f raw h]
    exact ⟨rfl, rfl⟩

/-! ## Sequence unit -/

/-- R97: the sequence tables after a transmission end. -/
theorem State.transmissionEnd_seq (f : OwnFrame) (raw : RawResult) :
    (s.transmissionEnd f raw).seq = (s.settleOutbound f raw).seq := by
  have hs : (s.endSettled f raw).state.seq = (s.settleOutbound f raw).seq := by
    have h1 : (s.frameOver.settle f.ref raw).state.seq = s.seq :=
      (State.settle_only s.frameOver f.ref raw).2 .seq (by decide)
    have h2 : ((s.frameOver.settle f.ref raw).state.appendHealth raw).seq = s.seq :=
      Eq.trans ((State.appendHealth_only _ raw).2 .seq (by decide)) h1
    simp only [State.endSettled, Upd.on_parts, State.settleOutbound]
    split
    · rw [State.putSeq_seq, State.putSeq_seq, h2]
    · exact h2
  have he : (s.endEchoed f raw).state.seq = (s.settleOutbound f raw).seq := by
    unfold State.endEchoed
    split
    · exact Eq.trans ((Upd.echo_only_parts _ f).2 .seq (by decide)) hs
    · exact hs
  rw [s.transmissionEnd_eq]
  refine Eq.trans (((s.endEchoed f raw).andThen State.leaveAtEnd).finish_only.2 .seq (by decide)) ?_
  exact Eq.trans ((State.leaveAtEnd_only _).2 .seq (by decide)) he

theorem OutEntry.isFor_iff (e : OutEntry) (d : NodeAddr) (c : ChannelNo) :
    e.isFor d c = true ↔ e.node = d ∧ e.channel = c := by
  simp [OutEntry.isFor]

/-- R97: what a result does to the entry of the pair. -/
theorem OutEntry.settle_eq (raw : RawResult) (e : OutEntry) :
    e.settle raw
      = { e with nextBit := (if raw = .accept then !e.nextBit else e.nextBit),
                 fresh := (if raw = .accept ∨ raw = .defer then false else e.fresh) } := by
  cases raw <;> rfl

/-- R97: the outbound table takes the result at the entry of the frame's pair; the inbound table stays. -/
theorem State.settleOutbound_addressed {f : OwnFrame} {d c b fr} (h : f.body = .addressed d c b fr) (raw : RawResult) :
    (s.settleOutbound f raw).seq.inbound = s.seq.inbound
      ∧ (s.settleOutbound f raw).seq.outbound = s.seq.outbound.map (fun e =>
          if e.node = d ∧ e.channel = c then
            { e with nextBit := (if raw = .accept then !e.nextBit else e.nextBit),
                     fresh := (if raw = .accept ∨ raw = .defer then false else e.fresh) }
          else e) := by
  simp only [State.settleOutbound, h, State.putSeq_seq]
  refine ⟨trivial, List.map_congr_left (fun e _ => ?_)⟩
  simp only [OutEntry.isFor_iff, OutEntry.settle_eq]

/-! ## The row -/

theorem execTransmissionEnd_eq {f : OwnFrame} (reply : Option RxChar) (h : s.Sends .awaitingReply f) :
    exec (.transmissionEnd reply) s = .next (s.transmissionEnd f (classifyReply reply)).endLineTime := by
  simp [exec, execTransmissionEnd, h.1, h.2]

/-- R4: how the reply that came, or did not, is classified. -/
theorem classifyReply_eq {reply : Option RxChar} {raw : RawResult}
    (h : (reply = none ∧ raw = .noReply)
      ∨ ∃ ch : RxChar, reply = some ch
        ∧ ((ch.framingError = false ∧ ch.value = 0x3C ∧ raw = .accept)
          ∨ (ch.framingError = false ∧ ch.value = 0x5A ∧ raw = .defer)
          ∨ (ch.framingError = false ∧ ch.value = 0x69 ∧ raw = .refuse)
          ∨ ((ch.framingError = true ∨ ch.value ∉ [0x3C, 0x5A, 0x69]) ∧ raw = .badReply))) :
    classifyReply reply = raw ∧ raw ≠ .sentClean ∧ raw ≠ .collision := by
  rcases h with ⟨rfl, rfl⟩ | ⟨ch, rfl, ⟨hf, hv, rfl⟩ | ⟨hf, hv, rfl⟩ | ⟨hf, hv, rfl⟩ | ⟨hb, rfl⟩⟩
  · exact ⟨rfl, by decide, by decide⟩
  · exact ⟨by simp [classifyReply, hf, hv], by decide, by decide⟩
  · exact ⟨by simp [classifyReply, hf, hv], by decide, by decide⟩
  · exact ⟨by simp [classifyReply, hf, hv], by decide, by decide⟩
  · refine ⟨?_, by decide, by decide⟩
    by_cases hf : ch.framingError = true
    · simp [classifyReply, hf]
    · have hv := hb.resolve_left hf
      simp only [List.mem_cons, List.not_mem_nil, or_false, not_or] at hv
      obtain ⟨h1, h2, h3⟩ := hv
      simp only [classifyReply, hf, Bool.false_eq_true, if_false, beq_iff_eq, h1, h2, h3]

/-- The end of the line time touches the line unit alone. -/
theorem State.endLineTime_leaves (r : Ref) : s.Leaves s.endLineTime r := s.putLine_leaves _ r

/-- R4, R15, R29: line unit and membership unit after a transmission end with its line time. -/
theorem State.transmissionEnd_endLineTime_line (f : OwnFrame) (raw : RawResult) :
    (s.transmissionEnd f raw).endLineTime.line.own = none
      ∧ (s.transmissionEnd f raw).endLineTime.line.activity = .idle
      ∧ (s.transmissionEnd f raw).endLineTime.line.den = false
      ∧ (s.transmissionEnd f raw).endLineTime.line.txd = []
      ∧ (s.transmissionEnd f raw).endLineTime.line.reception = none
      ∧ (s.transmissionEnd f raw).endLineTime.line.turn = s.line.turn
      ∧ (s.transmissionEnd f raw).endLineTime.line.round = s.line.round
      ∧ (s.member.lineState = .active →
          (s.transmissionEnd f raw).endLineTime.member.lineState = .active
          ∧ (s.transmissionEnd f raw).endLineTime.line.betweenTurns = true)
      ∧ (s.member.lineState = .leaving → (s.transmissionEnd f raw).endLineTime.member.lineState = .offline) := by
  have hm : (s.transmissionEnd f raw).endLineTime.member = (s.transmissionEnd f raw).member := rfl
  have e : (s.transmissionEnd f raw).endLineTime.line
      = { (s.transmissionEnd f raw).line with
          activity := .idle, reception := none, betweenTurns := (s.transmissionEnd f raw).tracking } := rfl
  by_cases h : s.member.lineState = .leaving
  · obtain ⟨hl, hmem⟩ := s.transmissionEnd_line_leave f raw h
    rw [hm, e, hl, hmem, h]
    exact ⟨rfl, rfl, rfl, rfl, rfl, rfl, rfl, (absurd · (by decide)), fun _ => rfl⟩
  · obtain ⟨hl, hmem⟩ := s.transmissionEnd_line_stay f raw h
    rw [hm, e, hl, hmem]
    exact ⟨rfl, rfl, rfl, rfl, rfl, rfl, rfl, fun ha => ⟨ha, by simp [State.tracking, hmem, ha]⟩, fun hv => absurd hv h⟩

/-- R39, R30: the fault confinement unit in ACTIVE and in LEAVING. -/
theorem State.transmissionEnd_fault_by_state (f : OwnFrame) (raw : RawResult) :
    (s.member.lineState = .active → (s.transmissionEnd f raw).fault = (s.appendHealth raw).fault)
      ∧ (s.member.lineState = .leaving → (s.transmissionEnd f raw).fault.cleanRounds = 0) :=
  ⟨fun h => s.transmissionEnd_fault_stay f raw (by rw [h]; decide),
    fun h => by rw [s.transmissionEnd_fault_leave f raw h]⟩

/-- R59: the results that settle nothing by themselves. -/
theorem RawResult.outcome_none {raw : RawResult} (h1 : raw ≠ .sentClean) (h2 : raw ≠ .accept) (h3 : raw ≠ .refuse) :
    raw.outcome = none := by
  cases raw with
  | sentClean => exact absurd rfl h1
  | accept => exact absurd rfl h2
  | refuse => exact absurd rfl h3
  | defer | noReply | badReply | collision => rfl

/-- R64: which results of the reply window had their effect. -/
theorem RawResult.outcome_isSome {raw : RawResult} (h : raw ≠ .sentClean) :
    raw.outcome.isSome = true ↔ raw = .accept ∨ raw = .refuse := by
  cases raw with
  | sentClean => exact absurd rfl h
  | accept | refuse | defer | noReply | badReply | collision => decide

/-- Settles O52: line unit, fault confinement and sequence unit, then the mailbox by its state. -/
theorem transmissionEndSettlesTheAttempt : Obligations.TransmissionEndSettlesTheAttempt := by
  intro s f reply raw d c b fr hs hb hreply
  obtain ⟨hraw, hclean, hcoll⟩ := classifyReply_eq hreply
  have hrow := execTransmissionEnd_eq s reply hs
  rw [hraw] at hrow
  obtain ⟨h1, h2, h3, -, h5, h6, h7, h8, h9⟩ := s.transmissionEnd_endLineTime_line f raw
  obtain ⟨hw, hst⟩ := s.transmissionEnd_window f raw
  obtain ⟨hfa, hfl⟩ := s.transmissionEnd_fault_by_state f raw
  obtain ⟨hin, hout⟩ := s.settleOutbound_addressed hb raw
  rw [← s.transmissionEnd_seq f raw] at hin hout
  have hleave := (s.transmissionEnd f raw).endLineTime_leaves f.ref
  have done : ∀ {o e}, s.Completed (s.transmissionEnd f raw) f.ref o e →
      s.Completed (s.transmissionEnd f raw).endLineTime f.ref o e := fun hc => hc.leaves hleave
  refine ⟨_, hrow, h1, h2, h3, h5, h6, h7, hw, hst, fun hl => ⟨(h8 hl).1, (h8 hl).2, hfa hl⟩,
    fun hl => ⟨h9 hl, hfl hl⟩, hin, hout, fun rec hrec hk => ⟨fun hsend hab => ?_, fun hsend hab => ?_⟩,
    fun hret => State.transmissionEnd_retired raw hret⟩
  · have hfail : raw ≠ .accept → raw ≠ .refuse → raw.outcome = none := RawResult.outcome_none hclean
    refine ⟨fun e => done (State.transmissionEnd_done (by rw [e]; rfl) hsend hab),
      fun e => done (State.transmissionEnd_done (by rw [e]; rfl) hsend hab), fun ha hr hl => ?_,
      fun ha hr hl hact => ?_, fun ha hr hl hlv hmem => ?_, State.transmissionEnd_lateAbort raw hsend hab⟩
    · have hc := done (State.transmissionEnd_expired (hfail ha hr) hsend hab hrec hl)
      cases raw with
      | defer | noReply | badReply => exact hc
      | accept => exact absurd rfl ha
      | refuse => exact absurd rfl hr
      | sentClean => exact absurd rfl hclean
      | collision => exact absurd rfl hcoll
    · exact State.transmissionEnd_held (hfail ha hr) hsend hab hrec hl (by rw [hact]; decide)
    · exact done (State.transmissionEnd_withdrawn (hfail ha hr) hsend hab hrec (by rw [hk]; decide) hl hlv hmem)
  · obtain ⟨hc, hp, hla⟩ := State.transmissionEnd_aborted raw hsend hab
    refine ⟨?_, hp, by rw [← RawResult.outcome_isSome hclean, ← hla]; rfl⟩
    have hc' := done hc
    cases raw with
    | accept | refuse | defer | noReply | badReply | collision => exact hc'
    | sentClean => exact absurd rfl hclean

end Sys2Proof.Machine
end

section
/-! O50: a readback mismatch of an own frame (R14): the transmission end with COLLISION, and the activity received on from
its first start bit, as header byte 0 or a foreign use has it. -/

namespace Sys2Proof.Machine

variable {s : State} {r : Ref}

/-! ## A mailbox at a slip -/

/-- R57, R61: a mailbox that is neither QUEUED nor HELD is not moved by a round boundary. -/
theorem Mailbox.atRoundBoundary_eq {m : Mailbox} (hq : m.state ≠ .queued) (hh : m.state ≠ .held) :
    m.atRoundBoundary = m := by
  unfold Mailbox.atRoundBoundary
  split
  next e => exact absurd e hq
  next e => exact absurd e hh
  all_goals rfl

/-- R61: a HELD mailbox is QUEUED at a round boundary. -/
theorem Mailbox.atRoundBoundary_held (m : Mailbox) :
    ({ m with state := .held } : Mailbox).atRoundBoundary = { m with state := .queued, holdOff := 0 } := rfl

/-- The state of a slip before its round boundary. -/
theorem State.slipSeen_advanceRound_leaves (s : State) (r : Ref) : s.Leaves s.slipSeen.advanceRound r :=
  .of_frame ((s.slipSeen_only).seq (State.putLine_only _ _) (by decide)) (by decide) (by decide) (by decide) (by decide) r

/-- R9, R10: a slip leaves a mailbox that is neither QUEUED, HELD nor WAITING_SPACE. -/
theorem State.slip_leaves (a : NodeAddr) (hq : (s.mailbox r).state ≠ .queued) (hh : (s.mailbox r).state ≠ .held)
    (hw : (s.mailbox r).state ≠ .waitingSpace) : s.Leaves (s.slip a) r := by
  rcases s.slip_cases a with ⟨-, -, e⟩ | ⟨-, e⟩
  · have h1 := s.slipSeen_advanceRound_leaves r
    have hb : s.slipSeen.advanceRound.Leaves s.slipSeen.advanceRound.bankRoundBoundary r :=
      State.bankRoundBoundary_leaves (Mailbox.atRoundBoundary_eq (by rw [h1.mailbox]; exact hq)
        (by rw [h1.mailbox]; exact hh))
    have h2 := h1.trans hb
    rw [e]
    exact (h2.trans (State.roundBoundary_leaves (.of_state (by rw [h2.mailbox]; exact hq)
      (by rw [h2.mailbox]; exact hw)))).trans (State.putLine_leaves _ _ r)
  · have h1 : s.Leaves s.slipSeen r :=
      .of_frame s.slipSeen_only (by decide) (by decide) (by decide) (by decide) r
    rw [e]
    exact h1.trans (State.putLine_leaves _ _ r)

/-- The round number after a slip is the one before it exactly without a round boundary. -/
theorem State.slip_round_eq_iff (s : State) (a : NodeAddr) :
    (s.slip a).line.round = s.line.round ↔ ¬ (s.tracking = true ∧ a < s.line.turn) := by
  rw [s.slip_line a]
  by_cases h : s.tracking = true ∧ a < s.line.turn
  · simp [h]
  · simp [h]

/-- R57, R61: of a mailbox that is not LOCAL a slip makes what its round boundary, if it takes one, makes of it. -/
theorem State.slip_mailbox (a : NodeAddr) (hl : s.isLocal r = false) :
    (s.slip a).mailbox r
      = if (s.slip a).line.round = s.line.round then s.mailbox r else (s.mailbox r).atRoundBoundary := by
  rcases s.slip_cases a with ⟨ht, ha, e⟩ | ⟨hn, e⟩
  · have h1 := s.slipSeen_advanceRound_leaves r
    have hm : s.slipSeen.advanceRound.bankRoundBoundary.mailbox r = (s.mailbox r).atRoundBoundary := by
      rw [State.bankRoundBoundary_mailbox, h1.mailbox]
    have hrec : (s.mailbox r).atRoundBoundary.record = (s.mailbox r).record := by
      unfold Mailbox.atRoundBoundary
      split <;> rfl
    have hu : s.slipSeen.advanceRound.bankRoundBoundary.Undecided r := by
      refine .inl ?_
      simpa only [State.isLocal, State.kind, hm, hrec] using hl
    rw [if_neg (fun hr => (s.slip_round_eq_iff a).1 hr ⟨ht, ha⟩), e, (State.putLine_views _ _).2.2.1,
      (State.roundBoundary_leaves hu).mailbox, hm]
  · rw [if_pos ((s.slip_round_eq_iff a).2 hn), e]
    rfl

/-- R45: outside LEAVING a slip leaves the fault window. -/
theorem State.slip_window_of_ne_leaving (a : NodeAddr) (h : s.member.lineState ≠ .leaving) :
    (s.slip a).fault.window = s.fault.window := by
  by_cases ha : s.member.lineState = .active
  · exact State.slip_window a ha
  · rw [s.slip_fault_still a (fun ht => (s.tracking_iff.1 ht.1).elim ha h)]

/-! ## The activity received on -/

/-- The activity is received on by the line unit, with a slip first or without, and perhaps a reception slot. -/
theorem State.receiveAfterCollision_slip (s : State) (f : OwnFrame) (k : Nat) (c : RxChar) :
    ∃ u, (u = s.receivedOn (collisionChars f k c) ∨ ∃ a, u = (s.receivedOn (collisionChars f k c)).slip a)
      ∧ u.OnlyChanges (s.receiveAfterCollision f k c) [.line, .store]
      ∧ (s.receiveAfterCollision f k c).line.round = u.line.round := by
  rcases s.receiveAfterCollision_cases f k c with ⟨-, e⟩ | ⟨pre, h0, -, e⟩ | ⟨-, -, e⟩
  · exact ⟨_, .inl rfl, by rw [e]; exact .refl _ _, by rw [e]⟩
  · rw [e]
    unfold State.headerZero
    simp only []
    split
    · exact ⟨_, .inl rfl, (State.follow_only _ _ _).mono (by decide), rfl⟩
    · split
      · exact ⟨_, .inr ⟨_, rfl⟩, (State.follow_only _ _ _).mono (by decide), by rw [State.foreignUse_line]⟩
      · split
        · exact ⟨_, .inr ⟨_, rfl⟩, State.frameStart_only _ _, by rw [State.frameStart_line]⟩
        · exact ⟨_, .inl rfl, State.frameStart_only _ _, by rw [State.frameStart_line]⟩
  · exact ⟨_, .inr ⟨_, rfl⟩, by rw [e]; exact (State.follow_only _ _ _).mono (by decide),
      by rw [e, State.foreignUse_line]⟩

theorem State.receiveAfterCollision_only (s : State) (f : OwnFrame) (k : Nat) (c : RxChar) :
    s.OnlyChanges (s.receiveAfterCollision f k c)
      [.line, .boxes, .refs, .completions, .store, .queues, .engines, .fault] := by
  obtain ⟨u, hu, ho, -⟩ := s.receiveAfterCollision_slip f k c
  have h1 : s.OnlyChanges u [.line, .boxes, .refs, .completions, .store, .queues, .engines, .fault] := by
    rcases hu with rfl | ⟨a, rfl⟩
    · exact (s.receivedOn_only _).mono (by decide)
    · exact ((s.receivedOn_only _).mono (by decide)).trans (State.slip_only _ a)
  exact h1.seq ho (by decide)

theorem State.receiveAfterCollision_leaves (f : OwnFrame) (k : Nat) (c : RxChar) (hq : (s.mailbox r).state ≠ .queued)
    (hh : (s.mailbox r).state ≠ .held) (hw : (s.mailbox r).state ≠ .waitingSpace) :
    s.Leaves (s.receiveAfterCollision f k c) r := by
  obtain ⟨u, hu, ho, -⟩ := s.receiveAfterCollision_slip f k c
  have h1 : s.Leaves u r := by
    rcases hu with rfl | ⟨a, rfl⟩
    · exact s.putLine_leaves _ r
    · exact (s.putLine_leaves _ r).trans (State.slip_leaves (s := s.receivedOn _) a hq hh hw)
  exact h1.trans (.of_frame ho (by decide) (by decide) (by decide) (by decide) r)

/-- R61: a mailbox that is not LOCAL, by the round number after the collision. -/
theorem State.receiveAfterCollision_mailbox (f : OwnFrame) (k : Nat) (c : RxChar) (hl : s.isLocal r = false) :
    (s.receiveAfterCollision f k c).mailbox r
      = if (s.receiveAfterCollision f k c).line.round = s.line.round then s.mailbox r
        else (s.mailbox r).atRoundBoundary := by
  obtain ⟨u, hu, ho, hr⟩ := s.receiveAfterCollision_slip f k c
  rw [ho.mailbox (by decide) r, hr]
  rcases hu with rfl | ⟨a, rfl⟩
  · exact (if_pos rfl).symm
  · exact State.slip_mailbox (s := s.receivedOn _) a hl

theorem State.receiveAfterCollision_window (f : OwnFrame) (k : Nat) (c : RxChar)
    (h : s.member.lineState ≠ .leaving) : (s.receiveAfterCollision f k c).fault.window = s.fault.window := by
  obtain ⟨u, hu, ho, -⟩ := s.receiveAfterCollision_slip f k c
  have hf : (s.receiveAfterCollision f k c).fault = u.fault := ho.2 .fault (by decide)
  rw [hf]
  rcases hu with rfl | ⟨a, rfl⟩
  · rfl
  · exact State.slip_window_of_ne_leaving (s := s.receivedOn _) a h

/-! ## By the character that collides -/

theorem collisionChars_one (f : OwnFrame) (c : RxChar) : collisionChars f 1 c = [cleanChar 0x55, c] := by
  rw [collisionChars, f.chars_eq]
  rfl

theorem collisionChars_length {f : OwnFrame} {k : Nat} {sent : Byte} (h : f.chars[k]? = some sent) (c : RxChar) :
    (collisionChars f k c).length = k + 1 := by
  have hk : k < f.chars.length := (List.getElem?_eq_some_iff.1 h).1
  simp [collisionChars]
  omega

/-- R14: the preamble collides: it is received on. -/
theorem State.receiveAfterCollision_zero (s : State) (f : OwnFrame) (c : RxChar) :
    s.receiveAfterCollision f 0 c = s.receivedOn [c] := rfl

/-- R14: header byte 0 collides: the turn check is made on it as read back. -/
theorem State.receiveAfterCollision_one (s : State) (f : OwnFrame) (c : RxChar) :
    s.receiveAfterCollision f 1 c = (s.receivedOn [cleanChar 0x55, c]).headerZero (cleanChar 0x55) c := by
  have hc := collisionChars_one f c
  rcases s.receiveAfterCollision_cases f 1 c with ⟨⟨c', h⟩, -⟩ | ⟨pre, h0, h, e⟩ | ⟨-, h, -⟩
  · rw [hc] at h
    simp at h
  · rw [hc] at h e
    simp only [List.cons.injEq, and_true] at h
    rw [e, ← h.1, ← h.2]
  · rw [hc] at h
    simp at h

/-- R10, R14: a later character collides: the use is foreign. -/
theorem State.receiveAfterCollision_late (s : State) {f : OwnFrame} {k : Nat} {sent : Byte}
    (h : f.chars[k]? = some sent) (hk : 2 ≤ k) (c : RxChar) :
    s.receiveAfterCollision f k c
      = (s.receivedOn (collisionChars f k c)).foreignUse (collisionChars f k c) := by
  have hl := collisionChars_length h c
  rcases s.receiveAfterCollision_cases f k c with ⟨⟨c', hc⟩, -⟩ | ⟨pre, h0, hc, -⟩ | ⟨-, -, e⟩
  · rw [hc] at hl
    simp at hl
    omega
  · rw [hc] at hl
    simp at hl
    omega
  · exact e

/-! ## The row -/

/-- R14: the state after a collision of character number `k` of the frame. -/
def State.collided (s : State) (f : OwnFrame) (k : Nat) (c : RxChar) : State :=
  if (s.transmissionEnd f .collision).sampling then (s.transmissionEnd f .collision).receiveAfterCollision f k c
  else s.transmissionEnd f .collision

theorem execCollision_eq {f : OwnFrame} {k : Nat} {sent : Byte} {c : RxChar} (h : s.Sends .transmitting f)
    (hk : f.chars[k]? = some sent) (hc : c.framingError = true ∨ c.value ≠ sent) :
    exec (.collision k c) s = .next (s.collided f k c) := by
  have hb : (c.framingError || c.value != sent) = true := by simpa using hc
  simp only [exec, execCollision, h.1, h.2, hk, hb, if_true]
  rfl

/-- R29, log 9: in LEAVING nothing is received. -/
theorem State.collided_leaving (f : OwnFrame) (k : Nat) (c : RxChar) (h : s.member.lineState = .leaving) :
    s.collided f k c = s.transmissionEnd f .collision := by
  have hs : (s.transmissionEnd f .collision).sampling = false := by
    simp [State.sampling, (s.transmissionEnd_line_leave f .collision h).2]
  simp [State.collided, hs]

/-- R14: on the line and not in LEAVING the activity is received. -/
theorem State.collided_received (f : OwnFrame) (k : Nat) (c : RxChar) (h : s.member.lineState ≠ .leaving)
    (ho : s.member.lineState ≠ .offline) :
    s.collided f k c = (s.transmissionEnd f .collision).receiveAfterCollision f k c := by
  have hs : (s.transmissionEnd f .collision).sampling = true := by
    simp [State.sampling, (s.transmissionEnd_line_stay f .collision h).2, ho]
  simp [State.collided, hs]

/-- What holds of the transmission end and after the activity is received on, holds after the row. -/
theorem State.collided_of (f : OwnFrame) (k : Nat) (c : RxChar) {P : State → Prop}
    (h : P (s.transmissionEnd f .collision))
    (hr : (s.transmissionEnd f .collision).member.lineState ≠ .leaving →
      P ((s.transmissionEnd f .collision).receiveAfterCollision f k c)) : P (s.collided f k c) := by
  by_cases hl : s.member.lineState = .leaving
  · rw [State.collided_leaving f k c hl]
    exact h
  · unfold State.collided
    split
    · exact hr (by rw [(s.transmissionEnd_line_stay f .collision hl).2]; exact hl)
    · exact h

/-- R14, R15: the own frame is over and the driver rests. -/
theorem State.transmissionEnd_rests (s : State) (f : OwnFrame) (raw : RawResult) :
    (s.transmissionEnd f raw).line.own = none ∧ (s.transmissionEnd f raw).line.den = false
      ∧ (s.transmissionEnd f raw).line.txd = [] := by
  by_cases h : s.member.lineState = .leaving
  · rw [(s.transmissionEnd_line_leave f raw h).1]
    exact ⟨rfl, rfl, rfl⟩
  · rw [(s.transmissionEnd_line_stay f raw h).1]
    exact ⟨rfl, rfl, rfl⟩

theorem State.collided_rests (s : State) (f : OwnFrame) (k : Nat) (c : RxChar) :
    (s.collided f k c).line.own = none ∧ (s.collided f k c).line.den = false ∧ (s.collided f k c).line.txd = [] := by
  obtain ⟨h1, h2, h3⟩ := s.transmissionEnd_rests f .collision
  refine State.collided_of f k c (P := fun t => t.line.own = none ∧ t.line.den = false ∧ t.line.txd = [])
    ⟨h1, h2, h3⟩ (fun _ => ?_)
  obtain ⟨-, ho, hd, hx, -, -⟩ := (s.transmissionEnd f .collision).receiveAfterCollision_line_keeps f k c
  exact ⟨ho.trans h1, hd.trans h2, hx.trans h3⟩

theorem State.collided_window (s : State) (f : OwnFrame) (k : Nat) (c : RxChar) :
    (s.collided f k c).fault.window = (s.appendHealth .collision).fault.window := by
  have h := (s.transmissionEnd_window f .collision).1
  exact State.collided_of f k c (P := fun t => t.fault.window = (s.appendHealth .collision).fault.window) h
    (fun hl => (State.receiveAfterCollision_window f k c hl).trans h)

/-- R97: COLLISION leaves both sequence tables. -/
theorem State.settleOutbound_collision (s : State) (f : OwnFrame) :
    (s.settleOutbound f .collision).seq = s.seq := by
  unfold State.settleOutbound
  split
  · rw [State.putSeq_seq]
    simp [OutEntry.settle]
  · rfl

theorem State.collided_seq (s : State) (f : OwnFrame) (k : Nat) (c : RxChar) : (s.collided f k c).seq = s.seq := by
  have h := (s.transmissionEnd_seq f .collision).trans (s.settleOutbound_collision f)
  exact State.collided_of f k c (P := fun t => t.seq = s.seq) h
    (fun _ => Eq.trans ((State.receiveAfterCollision_only _ f k c).2 .seq (by decide)) h)

/-- A mailbox that is DONE or VACANT after the transmission end is left alone. -/
theorem State.collided_leaves (f : OwnFrame) (k : Nat) (c : RxChar)
    (h : ((s.transmissionEnd f .collision).mailbox r).state = .done
      ∨ ((s.transmissionEnd f .collision).mailbox r).state = .vacant) :
    (s.transmissionEnd f .collision).Leaves (s.collided f k c) r := by
  refine State.collided_of f k c (P := fun t => (s.transmissionEnd f .collision).Leaves t r) (.refl _ r) (fun _ => ?_)
  rcases h with h | h <;>
    exact State.receiveAfterCollision_leaves f k c (by rw [h]; decide) (by rw [h]; decide) (by rw [h]; decide)

theorem State.collided_completed {f : OwnFrame} {o : MailOutcome} {e : Option ExpiryCause} (k : Nat) (c : RxChar)
    (h : s.Completed (s.transmissionEnd f .collision) f.ref o e) : s.Completed (s.collided f k c) f.ref o e :=
  h.leaves (State.collided_leaves f k c (.inl h.1))

/-- R73: the mailbox was RETIRING. -/
theorem State.collided_retired {f : OwnFrame} (k : Nat) (c : RxChar) (h : (s.mailbox f.ref).state = .retiring) :
    (s.collided f k c).mailbox f.ref = Mailbox.vacant ∧ f.ref ∉ (s.collided f k c).sched.refs := by
  obtain ⟨hm, hr⟩ := State.transmissionEnd_retired .collision h
  have hl := State.collided_leaves f k c (.inr (by rw [hm]; rfl))
  exact ⟨hl.mailbox.trans hm, hl.refs hr⟩

/-- R64: the mailbox had abort-pending. -/
theorem State.collided_aborted {f : OwnFrame} (k : Nat) (c : RxChar) (h : (s.mailbox f.ref).state = .sending)
    (ha : (s.mailbox f.ref).abortPending = true) :
    s.Completed (s.collided f k c) f.ref .aborted none
      ∧ ((s.collided f k c).mailbox f.ref).abortPending = false
      ∧ ((s.collided f k c).mailbox f.ref).lateAbort = false := by
  obtain ⟨hc, hp, hl⟩ := State.transmissionEnd_aborted .collision h ha
  rw [(State.collided_leaves f k c (.inl hc.1)).mailbox]
  exact ⟨State.collided_completed k c hc, hp, hl⟩

/-! ## In ACTIVE, at the own turn -/

/-- What the activity received on starts from, in ACTIVE. -/
theorem State.receivedOn_after_collision (f : OwnFrame) (chars : List RxChar) (h : s.member.lineState = .active) :
    ((s.transmissionEnd f .collision).receivedOn chars).member = s.member
      ∧ ((s.transmissionEnd f .collision).receivedOn chars).line
        = { s.line.frameOver with
            activity := .receiving,
            reception := some { phase := .opening, chars := chars, activeAtStart := true } }
      ∧ ((s.transmissionEnd f .collision).receivedOn chars).tracking = true
      ∧ ((s.transmissionEnd f .collision).receivedOn chars).store = (s.transmissionEnd f .collision).store := by
  obtain ⟨hl, hm⟩ := s.transmissionEnd_line_stay f .collision (by rw [h]; decide)
  refine ⟨hm, ?_, by simp [State.receivedOn, State.tracking, hm, h], rfl⟩
  simp [State.receivedOn, hl, hm, h]

/-- R18: no transmission end moves the reception slot. -/
theorem State.transmissionEnd_collision_rxSlot (f : OwnFrame) (h : s.member.lineState ≠ .leaving) :
    (s.transmissionEnd f .collision).store.rxSlot = s.store.rxSlot := by
  have hst : (s.endSettled f .collision).state.store = s.store := (s.endSettled_only f .collision).2 .store (by decide)
  rw [s.transmissionEnd_stay f .collision h, (Upd.finish_sameSlotAndLine _).1, s.endEchoed_of_ne f (by decide), hst]

/-- R14: the collision falls in the preamble. -/
theorem State.collided_zero (f : OwnFrame) (c : RxChar) (h : s.member.lineState = .active) :
    (s.collided f 0 c).line.reception = some { phase := .opening, chars := [c], activeAtStart := true }
      ∧ (s.collided f 0 c).line.turn = s.line.turn ∧ (s.collided f 0 c).line.turnSlips = s.line.turnSlips := by
  obtain ⟨-, hl, -, -⟩ := State.receivedOn_after_collision f [c] h
  rw [State.collided_received f 0 c (by rw [h]; decide) (by rw [h]; decide), State.receiveAfterCollision_zero, hl]
  exact ⟨rfl, rfl, rfl⟩

/-- R10, R14: the collision falls after header byte 0. -/
theorem State.collided_late {f : OwnFrame} {k : Nat} {sent : Byte} (hk : f.chars[k]? = some sent) (h2 : 2 ≤ k)
    (c : RxChar) (h : s.member.lineState = .active) (ht : s.line.turn = s.member.config.nodeAddress) :
    (s.collided f k c).line.reception.map (·.phase) = some .foreign
      ∧ (s.collided f k c).line.turn = s.line.turn ∧ (s.collided f k c).line.round = s.line.round
      ∧ (s.collided f k c).fault.spoiled = true
      ∧ (s.collided f k c).line.turnSlips.toNat = min 65535 (s.line.turnSlips.toNat + 1)
      ∧ (s.collided f k c).store.rxSlot = s.store.rxSlot := by
  obtain ⟨hm, hl, htr, hst⟩ := State.receivedOn_after_collision f (collisionChars f k c) h
  obtain ⟨h1, h2', -, h4, h5, h6, h7⟩ :=
    ((s.transmissionEnd f .collision).receivedOn (collisionChars f k c)).foreignUse_writes (collisionChars f k c)
  obtain ⟨h8, h9, -⟩ := ((s.transmissionEnd f .collision).receivedOn (collisionChars f k c)).slip_line_tracking
    s.member.config.nodeAddress htr
  have hsp := ((s.transmissionEnd f .collision).receivedOn (collisionChars f k c)).slip_spoiled
    s.member.config.nodeAddress htr
  have hlt : ¬ s.member.config.nodeAddress < s.line.turn := by rw [ht]; exact BitVec.lt_irrefl _
  have hslip : ((s.transmissionEnd f .collision).receivedOn (collisionChars f k c)).line.turn = s.line.turn := by
    rw [hl]; rfl
  rw [State.collided_received f k c (by rw [h]; decide) (by rw [h]; decide),
    State.receiveAfterCollision_late _ hk h2 c, h2', h4, h5, h6, h7, hm, h8, h9, hsp, hslip, hst, h1, hl,
    State.transmissionEnd_collision_rxSlot f (by rw [h]; decide)]
  refine ⟨rfl, ht.symm, ?_, by simp [hlt], rfl, rfl⟩
  rw [if_neg hlt]
  exact BitVec.add_zero _

/-- R5, R14: header byte 0 is read back as a disturbance. -/
theorem State.collided_one_disturbed (f : OwnFrame) (c : RxChar) (h : s.member.lineState = .active)
    (hd : c.framingError = true ∨ c.value.toNat % 4 ≠ 0) :
    (s.collided f 1 c).line.reception.map (·.phase) = some .disturbance
      ∧ (s.collided f 1 c).line.turnSlips = s.line.turnSlips := by
  obtain ⟨-, hl, -, -⟩ := State.receivedOn_after_collision f [cleanChar 0x55, c] h
  have hdist : isDisturbance (cleanChar 0x55) c = true := by
    rw [isDisturbance_iff]
    exact .inr (.inr (hd.symm))
  rw [State.collided_received f 1 c (by rw [h]; decide) (by rw [h]; decide), State.receiveAfterCollision_one,
    State.headerZero_disturbance _ hdist]
  simp only [State.follow, State.putLine_line, hl]
  exact ⟨rfl, rfl⟩

/-- R9, R10, R14: header byte 0 is read back with the sender address `a`. -/
theorem State.collided_one_slip (f : OwnFrame) {c : RxChar} {a : NodeAddr} (h : s.member.lineState = .active)
    (ht : s.line.turn = s.member.config.nodeAddress) (hf : c.framingError = false) (hz : c.value.toNat % 4 = 0)
    (ha : a.toNat = c.value.toNat / 8) :
    (s.collided f 1 c).line.turn = a
      ∧ (s.collided f 1 c).line.turnSlips.toNat = min 65535 (s.line.turnSlips.toNat + 1)
      ∧ (s.collided f 1 c).line.reception.map (·.phase)
          = some (if a = s.member.config.nodeAddress then .foreign else .frame)
      ∧ (s.collided f 1 c).line.round = s.line.round + (if a < s.line.turn then 1 else 0) := by
  obtain ⟨hm, hl, htr, -⟩ := State.receivedOn_after_collision f [cleanChar 0x55, c] h
  have hdist : isDisturbance (cleanChar 0x55) c = false := by
    rw [← Bool.not_eq_true, isDisturbance_iff]
    simp [cleanChar, hf, hz]
  have hs := senderOf_eq ha
  have hturn : ((s.transmissionEnd f .collision).receivedOn [cleanChar 0x55, c]).line.turn = s.line.turn := by
    rw [hl]; rfl
  have hround : ((s.transmissionEnd f .collision).receivedOn [cleanChar 0x55, c]).line.round = s.line.round := by
    rw [hl]; rfl
  have hslips : ((s.transmissionEnd f .collision).receivedOn [cleanChar 0x55, c]).line.turnSlips = s.line.turnSlips := by
    rw [hl]; rfl
  rw [State.collided_received f 1 c (by rw [h]; decide) (by rw [h]; decide), State.receiveAfterCollision_one]
  by_cases hown : a = s.member.config.nodeAddress
  · obtain ⟨h1, h2, -, -, -, h6⟩ := State.headerZero_foreign_writes _ hdist (by rw [hs, hm]; exact hown)
    obtain ⟨h7, h8, -⟩ := h6 htr
    rw [hs, hturn, hround] at h8
    exact ⟨h7.trans hs, by rw [h1, hslips], by rw [h2, if_pos hown], h8⟩
  · have hsender : senderOf c.value
        ≠ ((s.transmissionEnd f .collision).receivedOn [cleanChar 0x55, c]).member.config.nodeAddress := by
      rw [hs, hm]; exact hown
    obtain ⟨h1, h2, h3, -⟩ := State.headerZero_slip_writes _ hdist hsender htr (by rw [hs, hturn, ht]; exact hown)
    obtain ⟨h5, -, -⟩ := State.headerZero_frame_writes _ hdist hsender
    rw [hs, hturn, hround] at h3
    exact ⟨h2.trans hs, by rw [h1, hslips], by rw [h5, if_neg hown]; rfl, h3⟩

/-- R59, R61: the mailbox within its retry limit is HELD, or QUEUED by the round boundary that the turn check takes. -/
theorem State.collided_held {f : OwnFrame} {rec : MailRecord} (k : Nat) (c : RxChar) (h : s.member.lineState = .active)
    (hs : (s.mailbox f.ref).state = .sending) (ha : (s.mailbox f.ref).abortPending = false)
    (hr : (s.mailbox f.ref).record = some rec) (hk : rec.kind ≠ .localHandOff)
    (hl : (s.mailbox f.ref).attempts ≤ rec.retryLimit.toNat) :
    (s.collided f k c).mailbox f.ref
      = if (s.collided f k c).line.round = s.line.round then { s.mailbox f.ref with state := .held }
        else { s.mailbox f.ref with state := .queued, holdOff := 0 } := by
  have hm := State.transmissionEnd_held (raw := .collision) rfl hs ha hr hl (by rw [h]; decide)
  have hround : (s.transmissionEnd f .collision).line.round = s.line.round := by
    rw [(s.transmissionEnd_line_stay f .collision (by rw [h]; decide)).1]
    rfl
  have hlocal : (s.transmissionEnd f .collision).isLocal f.ref = false := by
    simp [State.isLocal, State.kind, hm, hr, hk]
  rw [State.collided_received f k c (by rw [h]; decide) (by rw [h]; decide),
    State.receiveAfterCollision_mailbox f k c hlocal, hm, hround, Mailbox.atRoundBoundary_held]

/-- Settles O50: what the row always leaves, LEAVING, ACTIVE by the character that collides, and the mailbox. -/
theorem collisionTurnsTheFrameIntoAReception : Obligations.CollisionTurnsTheFrameIntoAReception := by
  intro s f k sent c hs hk hc
  obtain ⟨h1, h2, h3⟩ := s.collided_rests f k c
  refine ⟨_, execCollision_eq hs hk hc, h1, h2, h3, s.collided_window f k c, s.collided_seq f k c, fun hl => ?_,
    fun ha ht => ⟨?_, ?_, fun hz => ?_, fun h2 => State.collided_late hk h2 c ha ht, fun h1 hd => ?_,
      fun a h1 hf hz hsender => ?_,
      fun hsend hab rec hrec hkind hlim => State.collided_held k c ha hsend hab hrec hkind hlim⟩,
    fun hsend hab rec hrec hkind => ⟨fun hl hlim hin => ?_, fun hlim => ?_⟩,
    State.collided_aborted k c, State.collided_retired k c⟩
  · obtain ⟨hline, hm⟩ := s.transmissionEnd_line_leave f .collision hl
    rw [State.collided_leaving f k c hl, hline, hm]
    exact ⟨rfl, rfl, rfl⟩
  · rw [State.collided_received f k c (by rw [ha]; decide) (by rw [ha]; decide),
      ((s.transmissionEnd f .collision).receiveAfterCollision_line_keeps f k c).2.2.2.2.2,
      (s.transmissionEnd_line_stay f .collision (by rw [ha]; decide)).2, ha]
  · rw [State.collided_received f k c (by rw [ha]; decide) (by rw [ha]; decide)]
    exact ((s.transmissionEnd f .collision).receiveAfterCollision_line_keeps f k c).1
  · subst hz
    exact State.collided_zero f c ha
  · subst h1
    exact State.collided_one_disturbed f c ha hd
  · subst h1
    exact State.collided_one_slip f ha ht hf hz hsender
  · exact State.collided_completed k c (State.transmissionEnd_withdrawn rfl hsend hab hrec hkind hlim hl hin)
  · exact State.collided_completed k c (State.transmissionEnd_expired rfl hsend hab hrec hlim)

end Sys2Proof.Machine
end

section
/-! The local echo at each port (R132, R135, R141 to R144): what one port's part of it does is decided by the queue,
engine and group match of that port, so that neither the order of the ports nor the other port matters. -/

namespace Sys2Proof.Machine

/-! ## What the part of a port is made from -/

/-- Queue, engine and group matches of the port, and the round number, are as they were. -/
structure State.SameAt (s t : State) (p : Port) : Prop where
  queue : t.queue p = s.queue p
  engine : t.engine p = s.engine p
  groupMatch : ∀ g, t.groupMatch p g = s.groupMatch p g
  round : t.line.round = s.line.round

theorem State.SameAt.refl (s : State) (p : Port) : s.SameAt s p := ⟨rfl, rfl, fun _ => rfl, rfl⟩

theorem State.SameAt.trans {s t u : State} {p : Port} (h : s.SameAt t p) (k : t.SameAt u p) : s.SameAt u p :=
  ⟨k.queue.trans h.queue, k.engine.trans h.engine, fun g => (k.groupMatch g).trans (h.groupMatch g),
    k.round.trans h.round⟩

/-- A frame without entries and line unit leaves the group matches and the round number. -/
theorem State.SameAt.of_only {s t : State} {l : List Part} {p : Port} (h : s.OnlyChanges t l) (he : Part.entries ∉ l)
    (hl : Part.line ∉ l) (hq : t.queue p = s.queue p) (hp : t.engine p = s.engine p) : s.SameAt t p :=
  ⟨hq, hp, h.groupMatch he p, congrArg LineUnit.round (h.line hl)⟩

theorem State.writeSlot_sameAt (s : State) (i : SlotNo) (b : List Byte) (p : Port) : s.SameAt (s.writeSlot i b) p :=
  .of_only (s.writeSlot_only i b) (by decide) (by decide) rfl rfl

theorem State.offer_sameAt (s : State) {p q : Port} (d : Delivery) (h : q ≠ p) : s.SameAt (s.offer p d).state q :=
  .of_only (s.offer_only p d) (by decide) (by decide) (s.offer_other d h).1 (s.offer_other d h).2

theorem State.countLoss_sameAt (s : State) {p q : Port} (n : Nat) (h : q ≠ p) : s.SameAt (s.countLoss p n) q :=
  .of_only (s.countLoss_only p n) (by decide) (by decide) (s.countLoss_other n h).1 (s.countLoss_other n h).2

/-! ## Actions of several ports in a row -/

/-- `f` acts for one port at a time and leaves the other ports alone. -/
def ActsAlone (f : Port → State → Upd) : Prop := ∀ (p q : Port) (s : State), q ≠ p → s.SameAt (f p s).state q

/-- A port that is not in the list is left alone. -/
theorem ActsAlone.each_other {f : Port → State → Upd} (h : ActsAlone f) {l : List Port} {p : Port} (hp : p ∉ l)
    (u : Upd) : u.state.SameAt (u.each l f).state p :=
  Upd.each_inv (fun t => u.state.SameAt t p) l f
    (fun q hq t ht => ht.trans (h q p t (fun e => hp (e ▸ hq)))) u (.refl _ p)

/-- A port that is in the list once is acted for once, from its queue and engine of before. -/
theorem ActsAlone.each_once {f : Port → State → Upd} (h : ActsAlone f) {l : List Port} (hl : l.Nodup) {p : Port}
    (hp : p ∈ l) (u : Upd) : ∃ w, u.state.SameAt w p ∧ (f p w).state.SameAt (u.each l f).state p := by
  induction l generalizing u with
  | nil => cases hp
  | cons q l ih =>
    obtain ⟨hq, hl⟩ := List.nodup_cons.1 hl
    rw [Upd.each_cons]
    by_cases e : p = q
    · subst e
      exact ⟨u.state, .refl _ p, h.each_other hq (u.andThen (f p))⟩
    · obtain ⟨w, hw, hf⟩ := ih hl ((List.mem_cons.1 hp).resolve_left e) (u.andThen (f q))
      exact ⟨w, (h q p u.state e).trans hw, hf⟩

theorem State.echoAt_actsAlone (q : Port) (g : GroupId) (n : Nat) (i : SlotNo) : ActsAlone (State.echoAt q g n i) := by
  intro p r s hr
  unfold State.echoAt
  split
  · exact s.offer_sameAt _ hr
  · exact .refl s r

theorem State.loseGroupAt_actsAlone (g : GroupId) : ActsAlone (State.loseGroupAt g) := by
  intro p r s hr
  unfold State.loseGroupAt
  split
  · exact s.countLoss_sameAt 1 hr
  · exact .refl s r

/-! ## The echo at a port -/

theorem mem_otherPorts {p q : Port} : p ∈ otherPorts q ↔ p ≠ q := by
  revert p q
  decide

theorem otherPorts_nodup (q : Port) : (otherPorts q).Nodup := List.Nodup.filter _ (by decide)

variable (v : State) (q : Port) (g : GroupId) (b : List Byte)

/-- R132: no other port matches. -/
theorem State.echo_unmatched (h : ∀ p, p ≠ q → v.groupMatch p g = none) : (v.echo q g b).state = v := by
  have hn : (otherPorts q).any (fun p => (v.groupMatch p g).isSome) = false := by
    rw [List.any_eq_false]
    intro p hp
    simp [h p (mem_otherPorts.1 hp)]
  simp [State.echo, hn]

variable {v q g b} {p : Port} {e : EntryNo}

theorem State.any_matches (hp : p ≠ q) (hm : v.groupMatch p g = some e) :
    (otherPorts q).any (fun p => (v.groupMatch p g).isSome) = true :=
  List.any_eq_true.2 ⟨p, mem_otherPorts.2 hp, by simp [hm]⟩

/-- R132: some other port matches, and a slot is free. -/
theorem State.echo_slot (hp : p ≠ q) (hm : v.groupMatch p g = some e) {i : SlotNo} (hi : v.LowestFree i) :
    (v.echo q g b).state
      = ((Upd.start (v.writeSlot i b)).each (otherPorts q) (State.echoAt q g b.length i)).state := by
  simp only [State.echo, State.any_matches hp hm, (v.lowestFree_some i).2 hi, if_true]

/-- R132: some other port matches, and no slot is free. -/
theorem State.echo_noSlot (hp : p ≠ q) (hm : v.groupMatch p g = some e) (hi : v.freeSlots = []) :
    (v.echo q g b).state = ((Upd.start v).each (otherPorts q) (State.loseGroupAt g)).state := by
  simp only [State.echo, State.any_matches hp hm, v.lowestFree_none.2 hi, if_true]

variable (v q g b)

/-- R132, R135: an echo reaches no other port, takes the lowest free slot, or finds none. -/
theorem State.echo_cases :
    (v.echo q g b).state = v
      ∨ (∃ i, v.LowestFree i ∧ (v.echo q g b).state
          = ((Upd.start (v.writeSlot i b)).each (otherPorts q) (State.echoAt q g b.length i)).state)
      ∨ (v.echo q g b).state = ((Upd.start v).each (otherPorts q) (State.loseGroupAt g)).state := by
  by_cases h : ∀ p, p ≠ q → v.groupMatch p g = none
  · exact .inl (v.echo_unmatched q g b h)
  · push Not at h
    obtain ⟨p, hp, hm⟩ := h
    obtain ⟨e, hm⟩ := Option.ne_none_iff_exists'.1 hm
    cases hi : v.lowestFree with
    | none => exact .inr (.inr (State.echo_noSlot hp hm (v.lowestFree_none.1 hi)))
    | some i =>
      have hi := (v.lowestFree_some i).1 hi
      exact .inr (.inl ⟨i, hi, State.echo_slot hp hm hi⟩)

/-- R132: the sending port is left alone. -/
theorem State.echo_source : v.SameAt (v.echo q g b).state q := by
  have hq : q ∉ otherPorts q := fun h => mem_otherPorts.1 h rfl
  rcases v.echo_cases q g b with e | ⟨i, -, e⟩ | e
  · rw [e]; exact .refl v q
  · rw [e]
    exact (v.writeSlot_sameAt i b q).trans ((State.echoAt_actsAlone q g b.length i).each_other hq (.start _))
  · rw [e]
    exact (State.loseGroupAt_actsAlone g).each_other hq (.start v)

variable {v q g b}

/-- R132: a port without a match is left alone. -/
theorem State.echo_noMatch (hp : p ≠ q) (hm : v.groupMatch p g = none) : v.SameAt (v.echo q g b).state p := by
  have hmem := mem_otherPorts.2 hp
  have hl := otherPorts_nodup q
  rcases v.echo_cases q g b with e | ⟨i, -, e⟩ | e
  · rw [e]; exact .refl v p
  · obtain ⟨w, hw, hf⟩ := (State.echoAt_actsAlone q g b.length i).each_once hl hmem (.start (v.writeSlot i b))
    have hw := (v.writeSlot_sameAt i b p).trans hw
    rw [State.echoAt, (hw.groupMatch g).trans hm] at hf
    rw [e]
    exact hw.trans hf
  · obtain ⟨w, hw, hf⟩ := (State.loseGroupAt_actsAlone g).each_once hl hmem (.start v)
    have hn : w.groupMatch p g = none := (hw.groupMatch g).trans hm
    rw [State.loseGroupAt, hn] at hf
    rw [e]
    exact State.SameAt.trans hw hf

/-- R132: with a slot, a port that matches is offered the echo in it. -/
theorem State.echo_match (hp : p ≠ q) (hm : v.groupMatch p g = some e) {i : SlotNo} (hi : v.LowestFree i) :
    ∃ w, v.SameAt w p
      ∧ (w.offer p { origin := .echo q g e, arrival := v.line.round, length := b.length, slot := i }).state.SameAt
          (v.echo q g b).state p := by
  obtain ⟨w, hw, hf⟩ := (State.echoAt_actsAlone q g b.length i).each_once (otherPorts_nodup q) (mem_otherPorts.2 hp)
    (.start (v.writeSlot i b))
  have hw := (v.writeSlot_sameAt i b p).trans hw
  simp only [State.echoAt, (hw.groupMatch g).trans hm, hw.round] at hf
  exact ⟨w, hw, by rw [State.echo_slot hp hm hi]; exact hf⟩

/-- R132: without a slot, a port that matches counts a loss. -/
theorem State.echo_loss (hp : p ≠ q) (hm : v.groupMatch p g = some e) (hi : v.freeSlots = []) :
    ∃ w, v.SameAt w p ∧ (w.countLoss p 1).SameAt (v.echo q g b).state p := by
  obtain ⟨w, hw, hf⟩ := (State.loseGroupAt_actsAlone g).each_once (otherPorts_nodup q) (mem_otherPorts.2 hp) (.start v)
  have hg : w.groupMatch p g = some e := (hw.groupMatch g).trans hm
  simp only [State.loseGroupAt, hg] at hf
  exact ⟨w, hw, by rw [State.echo_noSlot hp hm hi]; exact hf⟩

/-! ## The bytes of the slots -/

theorem State.writeSlot_bytes (s : State) (i j : SlotNo) (b : List Byte) :
    (s.writeSlot i b).store.bytes[j] = if j = i then writeBytes s.store.bytes[i] b else s.store.bytes[j] := by
  have e : (s.writeSlot i b).store.bytes = s.store.bytes.set i (writeBytes s.store.bytes[i] b) := rfl
  by_cases h : j = i
  · subst h
    simp [e]
  · have hn : i.val ≠ j.val := fun hv => h (Fin.ext hv.symm)
    simp [e, h, hn]

/-- R135: what is written stands at the start of the slot, as far as the slot reaches. -/
theorem writeBytes_take (old : Vector Byte 64) (b : List Byte) :
    (writeBytes old b).toList.take b.length = b.take 64 := by
  apply List.ext_getElem
  · simp [Nat.min_comm]
  · intro n h1 h2
    simp only [List.length_take, Vector.length_toList] at h1
    have hb : n < b.length := by omega
    simp [writeBytes, hb]

theorem State.each_echoAt_bytes (u : Upd) (l : List Port) (q : Port) (g : GroupId) (n : Nat) (i : SlotNo) :
    (u.each l (State.echoAt q g n i)).state.store.bytes = u.state.store.bytes :=
  Upd.each_keeps (fun s => s.store.bytes) l _ (fun p _ s => by
    unfold State.echoAt
    split
    · exact s.offer_bytes p _
    · rfl) u

theorem State.each_loseGroupAt_bytes (u : Upd) (l : List Port) (g : GroupId) :
    (u.each l (State.loseGroupAt g)).state.store.bytes = u.state.store.bytes :=
  Upd.each_keeps (fun s => s.store.bytes) l _ (fun p _ s => by
    unfold State.loseGroupAt
    split
    · exact congrArg FrameStore.bytes (s.countLoss_store p 1)
    · rfl) u

/-- R132, R135: an echo writes no slot but the lowest free one. -/
theorem State.echo_bytes_other (v : State) (q : Port) (g : GroupId) (b : List Byte) {j : SlotNo}
    (hj : ¬ v.LowestFree j) : (v.echo q g b).state.store.bytes[j] = v.store.bytes[j] := by
  rcases v.echo_cases q g b with e | ⟨i, hi, e⟩ | e
  · rw [e]
  · have hne : j ≠ i := fun h => hj (h ▸ hi)
    have hb := (v.writeSlot_bytes i j b).trans (if_neg hne)
    simp only [e, State.each_echoAt_bytes]
    exact hb
  · simp only [e, State.each_loseGroupAt_bytes]
    rfl

/-- R132, R135: where a port matches, the payload stands in it. -/
theorem State.echo_bytes_slot (hp : p ≠ q) (hm : v.groupMatch p g = some e) {i : SlotNo} (hi : v.LowestFree i) :
    ((v.echo q g b).state.store.bytes[i]).toList.take b.length = b.take 64 := by
  have hb := (v.writeSlot_bytes i i b).trans (if_pos rfl)
  simp only [State.echo_slot hp hm hi, State.each_echoAt_bytes]
  refine Eq.trans (congrArg (fun x => (Vector.toList x).take b.length) hb) (writeBytes_take _ b)

end Sys2Proof.Machine
end

section
/-! O51: the last check byte of an own frame is read back clean (R15): an ADDRESSED frame awaits its reply, a GROUP frame
ends SENT_CLEAN, with its echo (R132). -/

namespace Sys2Proof.Machine

/-! ## Settling by SENT_CLEAN -/

variable {s : State}

/-- R60, R64, R73: what the bank makes of SENT_CLEAN. -/
theorem State.settle_sentClean_cases (s : State) (r : Ref) :
    (s.settle r .sentClean).state = s
      ∨ (s.settle r .sentClean).state = s.vacate r
      ∨ ∃ u : State, u.engines = s.engines ∧ u.sched = s.sched ∧ (∀ q, u.kind q = s.kind q)
          ∧ (s.settle r .sentClean).state = u.complete r .sent none := by
  unfold State.settle
  split
  · split
    · refine .inr (.inr ⟨s.putMailbox r { s.mailbox r with abortPending := false, lateAbort := true }, rfl, rfl,
        fun q => ?_, State.settleAborted_eq .sentClean⟩)
      unfold State.kind
      rw [State.putMailbox_mailbox]
      split
      next h => rw [h]
      next => rfl
    · exact .inr (.inr ⟨s, rfl, rfl, fun _ => rfl, rfl⟩)
  · exact .inr (.inl rfl)
  all_goals exact .inl rfl

/-- No LOCAL mailbox comes onto the pending list where it only gets shorter and the kinds on it stay. -/
theorem State.NoLocalPending.of_subset {t : State} (h : s.NoLocalPending)
    (hr : ∀ r ∈ t.sched.refs, r ∈ s.sched.refs ∧ t.kind r = s.kind r) : t.NoLocalPending := by
  intro r hm
  obtain ⟨hs, hk⟩ := hr r hm
  have hl := h r hs
  unfold State.isLocal at hl ⊢
  rwa [hk]

theorem State.complete_kind (s : State) (r q : Ref) (o : MailOutcome) (c : Option ExpiryCause) :
    (s.complete r o c).kind q = s.kind q := by
  unfold State.kind
  rw [State.complete_mailbox]
  split
  next h => rw [h]
  next => rfl

theorem State.settle_sentClean_noLocal (r : Ref) (h : s.NoLocalPending) :
    (s.settle r .sentClean).state.NoLocalPending := by
  rcases s.settle_sentClean_cases r with e | e | ⟨u, -, hr, hk, e⟩
  · rwa [e]
  · rw [e]
    refine h.of_subset (fun q hq => ?_)
    rw [State.vacate_refs, List.mem_filter, bne_iff_ne] at hq
    exact ⟨hq.1, by rw [State.kind, State.vacate_mailbox, if_neg hq.2]; rfl⟩
  · rw [e]
    refine h.of_subset (fun q hq => ?_)
    rw [State.complete_refs, hr] at hq
    exact ⟨List.mem_of_mem_filter hq, (State.complete_kind u r q .sent none).trans (hk q)⟩

/-- R66, R68: of the engines, SENT_CLEAN writes TXDONE at the port of the mailbox. -/
theorem State.settle_sentClean_engine (s : State) (r : Ref) (q : Port) :
    (s.settle r .sentClean).state.engine q = s.engine q
      ∨ q = r.port ∧ (s.settle r .sentClean).state.engine q
          = { s.engine q with flags := { (s.engine q).flags with txDone := true } } := by
  rcases s.settle_sentClean_cases r with e | e | ⟨u, he, -, -, e⟩
  · exact .inl (by rw [e])
  · exact .inl (by rw [e]; rfl)
  · have hu : u.engine q = s.engine q := by simp only [State.engine, he]
    rw [e, State.complete_engine, hu]
    split
    next h => exact .inr ⟨h, rfl⟩
    next => exact .inl rfl

/-! ## The settled state -/

/-- R31, R51: LINE at all ports exactly on a change of the confinement state. -/
theorem State.confine_lineFollows (s : State) (f : Confinement) :
    s.LineFollows (s.confine f) ((s.confine f).fault.state ≠ s.fault.state) := by
  intro q
  rw [State.confine_fault, State.confine_engine]
  refine ⟨fun h => by rw [if_neg h], fun h => by rw [if_pos (not_not.1 h)]⟩

variable (s) (f : OwnFrame)

/-- What mailbox bank, fault confinement unit and sequence unit leave for the echo of a frame sent cleanly. -/
structure State.ReadyToEcho (s v : State) (f : OwnFrame) : Prop where
  store : v.store = s.store
  queue : ∀ p, v.queue p = s.queue p
  groupMatch : ∀ p g, v.groupMatch p g = s.groupMatch p g
  round : v.line.round = s.line.round
  noLocal : s.NoLocalPending → v.NoLocalPending
  lineFollows : s.LineFollows v (v.fault.state ≠ s.fault.state)
  own : (v.engine f.ref.port).flags.rx = (s.engine f.ref.port).flags.rx
    ∧ (v.engine f.ref.port).flags.loss = (s.engine f.ref.port).flags.loss
  other : ∀ p, p ≠ f.ref.port →
    v.engine p = { s.engine p with flags := { (s.engine p).flags with line := (v.engine p).flags.line } }

/-- The settled state, with a free order drawn. -/
theorem State.endSettled_readyToEcho : s.ReadyToEcho (s.endSettled f .sentClean).state.drawn f := by
  have hf : s.frameOver.OnlyChanges (s.endSettled f .sentClean).state.drawn
      [.boxes, .refs, .completions, .engines, .fault, .seq, .draws] :=
    ((s.endSettled_only f .sentClean).mono (by decide)).seq (State.drawn_only _) (by decide)
  obtain ⟨c, hc⟩ := (s.frameOver.settle f.ref .sentClean).state.appendHealth_eq_confine .sentClean
  have hsettle := s.frameOver.settle_only f.ref .sentClean
  have hend : ((s.frameOver.settle f.ref .sentClean).state.confine c).OnlyChanges
      (s.endSettled f .sentClean).state.drawn [.seq, .draws] := by
    rw [← hc]
    exact ((State.settleOutbound_only _ f .sentClean).mono (by decide)).seq (State.drawn_only _) (by decide)
  have hfault : (s.frameOver.settle f.ref .sentClean).state.fault = s.fault := hsettle.2 .fault (by decide)
  have hline := State.confine_lineFollows (s.frameOver.settle f.ref .sentClean).state c
  have hflags := State.confine_flags (s.frameOver.settle f.ref .sentClean).state c
  have heng := s.frameOver.settle_sentClean_engine f.ref
  have hvfault : (s.endSettled f .sentClean).state.drawn.fault
      = ((s.frameOver.settle f.ref .sentClean).state.confine c).fault := hend.2 .fault (by decide)
  refine ⟨hf.2 .store (by decide), hf.queue (by decide), hf.groupMatch (by decide),
    Eq.trans (congrArg LineUnit.round (hf.line (by decide))) rfl, fun hn => ?_, fun q => ?_, ?_, fun p hp => ?_⟩
  · have h1 : (s.frameOver.settle f.ref .sentClean).state.NoLocalPending :=
      State.settle_sentClean_noLocal (s := s.frameOver) f.ref hn
    exact (h1.of_only (State.confine_only _ c) (by decide) (by decide)).of_only hend (by decide) (by decide)
  · have hq : ((s.frameOver.settle f.ref .sentClean).state.engine q).flags.line = (s.engine q).flags.line := by
      rcases heng q with e | ⟨-, e⟩ <;> rw [e] <;> rfl
    rw [hvfault, hend.engine (by decide), ← hfault, ← hq]
    exact hline q
  · rw [hend.engine (by decide), hflags]
    rcases heng f.ref.port with e | ⟨-, e⟩ <;> rw [e] <;> exact ⟨rfl, rfl⟩
  · rw [hend.engine (by decide), hflags, (heng p).resolve_right (fun h => hp h.1)]
    rfl

/-- R132, R133: where no LOCAL mailbox is pending, the echo is made of the settled state, and no pass changes it. -/
theorem State.transmissionEnd_sentClean {g : GroupId} (hb : f.body = .group g) (hn : s.NoLocalPending)
    (hl : s.member.lineState ≠ .leaving) :
    s.transmissionEnd f .sentClean
      = ((s.endSettled f .sentClean).state.drawn.echo f.ref.port g f.payload).state := by
  have hv := (s.endSettled_readyToEcho f).noLocal hn
  have hu : (s.endSettled f .sentClean).state.NoLocalPending := hv
  have he : (s.endEchoed f .sentClean).state
      = ((s.endSettled f .sentClean).state.drawn.echo f.ref.port g f.payload).state := by
    simp only [State.endEchoed, beq_self_eq_true, if_true, Upd.echo, hb, Upd.andThen_parts]
    split
    · rw [State.localPass_none _ _ hu]
    · rfl
  have hne : (s.endEchoed f .sentClean).state.NoLocalPending := by
    rw [he]
    exact hv.of_only (State.echo_only _ _ _ _) (by decide) (by decide)
  rw [s.transmissionEnd_stay f .sentClean hl, Upd.finish_none _ hne, he]

/-! ## The echo of the settled state -/

variable {s f} {v : State} {g : GroupId} {p : Port}

theorem State.ReadyToEcho.lowestFree_iff (h : s.ReadyToEcho v f) (i : SlotNo) : v.LowestFree i ↔ s.LowestFree i := by
  simp only [State.LowestFree, State.slotFree, h.store]

theorem State.ReadyToEcho.freeSlots_eq (h : s.ReadyToEcho v f) : v.freeSlots = s.freeSlots := by
  have e : v.slotFree = s.slotFree := by
    funext i
    simp only [State.slotFree, h.store]
  simp only [State.freeSlots, e]

/-- R144: an echo sets RX and LOSS, and leaves LINE. -/
theorem State.echo_line (v : State) (q : Port) (g : GroupId) (b : List Byte) (p : Port) :
    ((v.echo q g b).state.engine p).flags.line = (v.engine p).flags.line := by
  obtain ⟨x, y, e⟩ := v.echo_onlyRxLoss q g b p
  rw [e]

/-- R31, R51: LINE after the echo. -/
theorem State.ReadyToEcho.echo_lineFollows (h : s.ReadyToEcho v f) :
    s.LineFollows (v.echo f.ref.port g f.payload).state
      ((v.echo f.ref.port g f.payload).state.fault.state ≠ s.fault.state) := by
  have hf : (v.echo f.ref.port g f.payload).state.fault = v.fault :=
    (v.echo_only f.ref.port g f.payload).2 .fault (by decide)
  intro q
  rw [hf, State.echo_line]
  exact h.lineFollows q

/-- R132: the sending port has no part in the echo. -/
theorem State.ReadyToEcho.echo_own (h : s.ReadyToEcho v f) :
    (v.echo f.ref.port g f.payload).state.queue f.ref.port = s.queue f.ref.port
      ∧ ((v.echo f.ref.port g f.payload).state.engine f.ref.port).flags.rx = (s.engine f.ref.port).flags.rx
      ∧ ((v.echo f.ref.port g f.payload).state.engine f.ref.port).flags.loss = (s.engine f.ref.port).flags.loss := by
  have he := v.echo_source f.ref.port g f.payload
  rw [he.queue, he.engine]
  exact ⟨h.queue _, h.own⟩

/-- R132: a port without a match has no part in the echo. -/
theorem State.ReadyToEcho.echo_noMatch (h : s.ReadyToEcho v f) (hp : p ≠ f.ref.port) (hm : s.groupMatch p g = none) :
    (v.echo f.ref.port g f.payload).state.queue p = s.queue p
      ∧ (v.echo f.ref.port g f.payload).state.engine p
        = { s.engine p with
            flags := { (s.engine p).flags with
              line := ((v.echo f.ref.port g f.payload).state.engine p).flags.line } } := by
  have he := State.echo_noMatch (b := f.payload) hp ((h.groupMatch p g).trans hm)
  rw [he.queue, he.engine]
  exact ⟨h.queue p, h.other p hp⟩

/-- R132, R135: no slot but the lowest free one is written. -/
theorem State.ReadyToEcho.echo_bytes_other (h : s.ReadyToEcho v f) {j : SlotNo} (hj : ¬ s.LowestFree j) :
    (v.echo f.ref.port g f.payload).state.store.bytes[j] = s.store.bytes[j] := by
  rw [State.echo_bytes_other v _ _ _ (fun hv => hj ((h.lowestFree_iff j).1 hv))]
  simp only [h.store]

/-- R129, R132, R144: a port that matches takes what an append of the echo to its own queue makes, and the slot holds
the payload. -/
theorem State.ReadyToEcho.echo_match (h : s.ReadyToEcho v f) (hp : p ≠ f.ref.port) {e : EntryNo}
    (hm : s.groupMatch p g = some e) {i : SlotNo} (hi : s.LowestFree i) {u : State}
    (hu : u = (s.offer p { origin := .echo f.ref.port g e, arrival := s.line.round, length := f.payload.length,
                           slot := i }).state) :
    (v.echo f.ref.port g f.payload).state.queue p = u.queue p
      ∧ (v.echo f.ref.port g f.payload).state.engine p
        = { u.engine p with
            flags := { (u.engine p).flags with
              line := ((v.echo f.ref.port g f.payload).state.engine p).flags.line } }
      ∧ ((v.echo f.ref.port g f.payload).state.store.bytes[i]).toList.take f.payload.length
        = f.payload.take 64 := by
  have hm' : v.groupMatch p g = some e := (h.groupMatch p g).trans hm
  have hi' := (h.lowestFree_iff i).2 hi
  obtain ⟨w, hw, ht⟩ := State.echo_match (b := f.payload) hp hm' hi'
  rw [h.round] at ht
  obtain ⟨hq, he⟩ := State.offer_congr (s := s) (t := w) (p := p) (x := (v.engine p).flags.line)
    { origin := .echo f.ref.port g e, arrival := s.line.round, length := f.payload.length, slot := i }
    (hw.queue.trans (h.queue p)) (hw.engine.trans (h.other p hp))
  rw [State.echo_line, ht.queue, ht.engine, hq, he, hu]
  exact ⟨rfl, rfl, State.echo_bytes_slot hp hm' hi'⟩

/-- R132, R143, R144: without a slot, a port that matches counts one loss. -/
theorem State.ReadyToEcho.echo_loss (h : s.ReadyToEcho v f) (hp : p ≠ f.ref.port) {e : EntryNo}
    (hm : s.groupMatch p g = some e) (hi : s.freeSlots = []) :
    (v.echo f.ref.port g f.payload).state.queue p
        = { s.queue p with pendingLosses := min 255 ((s.queue p).pendingLosses + 1) }
      ∧ (v.echo f.ref.port g f.payload).state.engine p
        = { s.engine p with
            flags := { (s.engine p).flags with
              loss := (s.engine p).flags.loss || (s.queue p).pendingLosses == 0,
              line := ((v.echo f.ref.port g f.payload).state.engine p).flags.line } } := by
  obtain ⟨w, hw, ht⟩ := State.echo_loss (b := f.payload) hp ((h.groupMatch p g).trans hm) (h.freeSlots_eq.trans hi)
  have hq := hw.queue.trans (h.queue p)
  have he := hw.engine.trans (h.other p hp)
  rw [State.echo_line, ht.queue, ht.engine, State.countLoss_queue, State.countLoss_engine, if_pos rfl, if_pos rfl, hq, he]
  exact ⟨rfl, rfl⟩

/-! ## The row -/

theorem execCheckWordReadBack_addressed {d c b fr} (h : s.Sends .transmitting f) (hb : f.body = .addressed d c b fr) :
    exec .checkWordReadBack s = .next (s.putLine { s.line with activity := .awaitingReply, den := false, txd := [] }) := by
  simp [exec, execCheckWordReadBack, h.1, h.2, hb]

theorem execCheckWordReadBack_group (h : s.Sends .transmitting f) (hb : f.body = .group g) :
    exec .checkWordReadBack s = .next (s.transmissionEnd f .sentClean).endLineTime := by
  simp [exec, execCheckWordReadBack, h.1, h.2, hb]

/-- R97: the sequence unit takes no part in the end of a GROUP frame. -/
theorem State.transmissionEnd_seq_group (hb : f.body = .group g) (raw : RawResult) :
    (s.transmissionEnd f raw).seq = s.seq := by
  rw [s.transmissionEnd_seq f raw]
  simp only [State.settleOutbound, hb]

/-- Settles O51: the ADDRESSED frame, then for the GROUP frame line unit, mailbox, and the echo at each port. -/
theorem cleanReadbackAwaitsReplyOrEchoes : Obligations.CleanReadbackAwaitsReplyOrEchoes := by
  intro s f hs
  refine ⟨fun d c b fr hb => ⟨_, execCheckWordReadBack_addressed hs hb, rfl, s.putLine_only _⟩, fun g hb => ?_⟩
  obtain ⟨h1, h2, h3, h4, -, h6, h7, h8, h9⟩ := s.transmissionEnd_endLineTime_line f .sentClean
  have hleave := (s.transmissionEnd f .sentClean).endLineTime_leaves f.ref
  refine ⟨_, execCheckWordReadBack_group hs hb, h1, h3, h4, h2, h6, h7, State.transmissionEnd_seq_group hb _,
    fun ha => ⟨(h8 ha).1, (h8 ha).2, (s.transmissionEnd_fault_by_state f .sentClean).1 ha⟩, h9, fun hsend hab => ?_,
    fun hsend hab => ?_, State.transmissionEnd_retired .sentClean, fun hn ha => ?_⟩
  · have hc := State.transmissionEnd_done (raw := .sentClean) rfl hsend hab
    exact ⟨hc.leaves hleave, State.transmissionEnd_lateAbort .sentClean hsend hab⟩
  · obtain ⟨hc, -, hlate⟩ := State.transmissionEnd_aborted .sentClean hsend hab
    exact ⟨hc.leaves hleave, hlate⟩
  · have hr := s.endSettled_readyToEcho f
    rw [s.transmissionEnd_sentClean f hb hn (by rw [ha]; decide)]
    obtain ⟨hq, hrx, hloss⟩ := hr.echo_own (g := g)
    exact ⟨hr.echo_lineFollows, hq, hrx, hloss, fun p hp hm => hr.echo_noMatch hp hm,
      fun j hj => hr.echo_bytes_other hj, fun p e i hp hm hi u hu => hr.echo_match hp hm hi hu,
      fun p e hp hm hi => hr.echo_loss hp hm hi⟩

end Sys2Proof.Machine
end

section
/-! O17, O18, O19: CONFIGURE (R33, R34, R104), and READ_LINE with its counters (R35, R36, R20). -/

namespace Sys2Proof.Machine

variable (s : State) (p : Port)

/-! ## CONFIGURE -/

theorem lineConfigOf_none {a b c d : Byte} (h : 31 < a.toNat ∨ 4 < b.toNat ∨ 1 < c.toNat ∨ 1 < d.toNat) :
    lineConfigOf a b c d = none := by
  unfold lineConfigOf
  rcases h with ha | hb | hc | hd
  · split
    · exact if_neg (by omega)
    · rfl
  · rw [indexOfByte_none hb]
  · rw [SharePolicy.ofByte_none hc]
    cases indexOfByte 5 b <;> rfl
  · rw [RecoveryPolicy.ofByte_none hd]
    cases indexOfByte 5 b <;> cases SharePolicy.ofByte c <;> rfl

theorem lineConfigOf_some {a b c d : Byte} (ha : a.toNat ≤ 31) (hb : b.toNat < 5) (hc : c.toNat ≤ 1) (hd : d.toNat ≤ 1) :
    lineConfigOf a b c d
      = some { nodeAddress := BitVec.ofNat 5 a.toNat, bitRate := ⟨b.toNat, hb⟩,
               share := if c = 0 then .key else .rotate, recovery := if d = 0 then .auto else .manual } := by
  unfold lineConfigOf
  rw [indexOfByte_some (i := ⟨b.toNat, hb⟩) rfl, SharePolicy.ofByte_some hc, RecoveryPolicy.ofByte_some hd]
  simp only [BitVec.ofNat_toNat]
  rw [if_pos (by omega)]

/-- R34, R104: the record is the one given, and the sequence tables stay exactly if neither address nor rate is new. -/
theorem State.configure_writes (c : LineConfig) :
    (s.configure c).member = { s.member with config := c }
      ∧ (s.configure c).seq
          = if c.nodeAddress = s.member.config.nodeAddress ∧ c.bitRate = s.member.config.bitRate then s.seq
            else { outbound := [], inbound := [] } := by
  unfold State.configure
  simp only [Bool.and_eq_true, beq_iff_eq]
  split <;> exact ⟨rfl, rfl⟩

theorem configureBody_short {bytes : List Byte} (h : bytes.length < 4) : configureBody bytes s = (s, .truncated) := by
  match bytes, h with
  | [], _ | [_], _ | [_, _], _ | [_, _, _], _ => rfl
  | _ :: _ :: _ :: _ :: _, h => simp only [List.length_cons] at h; omega

theorem configureBody_busy {a b c d : Byte} (rest : List Byte) (h : s.member.lineState ≠ .offline) :
    configureBody (a :: b :: c :: d :: rest) s = (s, .busy) := by
  simp [configureBody, h]

theorem configureBody_refused {a b c d : Byte} (rest : List Byte) (h : s.member.lineState = .offline)
    (hc : lineConfigOf a b c d = none) : configureBody (a :: b :: c :: d :: rest) s = (s, .badArgument) := by
  simp [configureBody, h, hc]

theorem configureBody_taken {a b c d : Byte} {cfg : LineConfig} (rest : List Byte) (h : s.member.lineState = .offline)
    (hc : lineConfigOf a b c d = some cfg) : configureBody (a :: b :: c :: d :: rest) s = (s.configure cfg, .ok) := by
  simp [configureBody, h, hc]

/-- R156: a command that changes nothing answers with its result alone. -/
theorem State.takeCommand_refused {s : State} {p : Port} (c : Command) {body : State → State × Result} {r : Result}
    (h : s.InTransaction p) (hb : body (s.closeTransaction p) = (s.closeTransaction p, r)) :
    s.Answered (s.takeCommand p c body) p r [] := by
  have ha := s.takeCommand_answered p c body [] h (by rw [hb]; exact .refl _ _) (by decide) (by decide)
  rwa [hb] at ha

/-- Settles O17: the body of CONFIGURE by its checks, each answered at the release. -/
theorem configureReplacesTheRecord : Obligations.ConfigureReplacesTheRecord := by
  intro s p hin
  refine ⟨fun bytes hlen => ?_, fun a b c d rest => ⟨fun hl => ?_, fun hl hbad => ?_, fun hl ha hb hc hd => ?_⟩⟩
  · exact ⟨_, rfl, State.takeCommand_refused .configure hin (configureBody_short _ hlen)⟩
  · exact ⟨_, rfl, State.takeCommand_refused .configure hin (configureBody_busy _ rest hl)⟩
  · exact ⟨_, rfl, State.takeCommand_refused .configure hin (configureBody_refused _ rest hl (lineConfigOf_none hbad))⟩
  · have hbody := configureBody_taken (s.closeTransaction p) rest hl (lineConfigOf_some ha hb hc hd)
    have hans := s.takeCommand_answered p .configure _ _ hin (configureBody_only _ (a :: b :: c :: d :: rest))
      (by decide) (by decide)
    have heq := s.takeCommand_eq p .configure (configureBody (a :: b :: c :: d :: rest)) hin
    rw [hbody] at hans heq
    obtain ⟨hm, hs⟩ := (s.closeTransaction p).configure_writes
      { nodeAddress := BitVec.ofNat 5 a.toNat, bitRate := ⟨b.toNat, hb⟩,
        share := if c = 0 then .key else .rotate, recovery := if d = 0 then .auto else .manual }
    refine ⟨_, rfl, hans, ?_⟩
    rw [heq]
    simpa only [State.report_fields, State.closeTransaction_fields, hm, true_and] using hs

/-! ## READ_LINE -/

/-- R155, R157: the argument byte of a read command completes, and its snapshot is held. -/
theorem execReadSnapshot_hasSnapshot (cmd : ReadCommand) (arg : Byte) (h : s.InTransaction p)
    (hc : (s.snapshotOf p cmd arg).cmd = cmd) :
    ∃ t, execReadSnapshot p cmd arg s = .next t ∧ t.HasSnapshot p (s.snapshotOf p cmd arg) := by
  obtain ⟨x, hx, hn, -⟩ := h.exists_txn
  refine ⟨s.takeSnapshot p x cmd arg, by simp [execReadSnapshot, hx, hn], ?_⟩
  have he : (s.takeSnapshot p x cmd arg).engine p
      = { s.engine p with txn := some { x with received := [cmd.code, arg],
                                               snapshot := some (s.snapshotOf p cmd arg) } } := by
    unfold State.takeSnapshot
    split <;> simp [State.setTxnPin]
  unfold State.HasSnapshot
  rw [he, hc]
  rfl

theorem SharePolicy.code_eq (x : SharePolicy) : x.code = if x = .key then 0 else 1 := by cases x <;> rfl

theorem RecoveryPolicy.code_eq (x : RecoveryPolicy) : x.code = if x = .auto then 0 else 1 := by cases x <;> rfl

theorem State.snapLine_refused {arg : Byte} (h : 1 < arg.toNat) : s.snapLine arg = badSnapshot .line := by
  unfold State.snapLine
  rw [if_neg (byte_ne_of_lt (Nat.lt_of_le_of_lt (by decide) h)), if_neg (byte_ne_of_lt (c := 1) h)]

theorem State.snapLine_valid {arg : Byte} (h : arg.toNat ≤ 1) :
    s.snapLine arg
      = validSnapshot .line (lineData s)
          (if arg = 0 then .none else .reduce s.line.checkErrors s.line.turnSlips) := by
  rcases byte_le_one h with rfl | rfl <;> rfl

theorem State.snapLine_cmd (arg : Byte) : (s.snapLine arg).cmd = .line := by
  by_cases h : arg.toNat ≤ 1
  · rw [s.snapLine_valid h]; rfl
  · rw [s.snapLine_refused (by omega)]; rfl

/-- Settles O18: the snapshot of READ_LINE, by its argument. -/
theorem readLineReportsStanding : Obligations.ReadLineReportsStanding := by
  intro s p arg hin
  obtain ⟨t, ht, hsnap⟩ := execReadSnapshot_hasSnapshot s p .line arg hin (s.snapLine_cmd arg)
  refine ⟨t, s.snapLine arg, ht, hsnap, fun h => ?_, fun h => ?_⟩
  · rw [s.snapLine_refused h]
    exact ⟨rfl, rfl⟩
  · rw [s.snapLine_valid h]
    refine ⟨rfl, rfl, ?_⟩
    simp only [validSnapshot, lineData, bytesOf16_eq, SharePolicy.code_eq, RecoveryPolicy.code_eq, byteOf, BitVec.ofNat_toNat]
    rfl

theorem reduceCounter_toNat (c reported : BitVec 16) : (reduceCounter c reported).toNat = c.toNat - reported.toNat := by
  unfold reduceCounter
  split
  next h => exact (Nat.sub_eq_zero_of_le (Nat.le_of_lt (BitVec.lt_def.1 h))).symm
  next h => exact BitVec.toNat_sub_of_le (BitVec.not_lt.1 h)

/-- A read command that is complete and acts on neither engines nor queues answers OK. -/
theorem State.takeRead_effect_answered {s : State} {p : Port} {n : Snapshot} {k : Nat}
    {effect : SideEffect → State → State} {parts : List Part} (h : s.HasSnapshot p n) (hr : readResult (some n) k = .ok)
    (hf : (s.closeTransaction p).OnlyChanges (effect n.effect (s.closeTransaction p)) parts)
    (he : .engines ∉ parts) (hq : .queues ∉ parts) :
    s.takeRead p n.cmd k effect = (effect n.effect (s.closeTransaction p)).report p .ok
      ∧ s.Answered (s.takeRead p n.cmd k effect) p .ok parts := by
  have e : s.takeRead p n.cmd k effect = (effect n.effect (s.closeTransaction p)).report p .ok := by
    rw [s.takeRead_some p n k effect h, hr, if_pos rfl]
  refine ⟨e, ?_⟩
  rw [e]
  refine ⟨by simp [hf.engine he], by simp [hf.queue hq], fun q hne => by simp [hf.engine he, hf.queue hq, hne], ?_⟩
  exact (((s.closeTransaction_only p).mono (by simp)).seq hf (by simp +contextual)).seq (State.report_only _ p _) (by simp)

/-- A read command that is not complete answers with its result alone. -/
theorem State.takeRead_incomplete_answered {s : State} {p : Port} {n : Snapshot} {k : Nat}
    (effect : SideEffect → State → State) {r : Result} (h : s.HasSnapshot p n) (hr : readResult (some n) k = r)
    (hne : r ≠ .ok) : s.Answered (s.takeRead p n.cmd k effect) p r [] := by
  rw [s.takeRead_some p n k effect h, hr, if_neg hne]
  exact s.report_closeTransaction_answered p r

theorem readResult_badArgument {n : Snapshot} (k : Nat) (h : n.verdict = .badArgument) :
    readResult (some n) k = .badArgument := by
  simp [readResult, h]

theorem readResult_short {n : Snapshot} {k : Nat} (h : n.verdict = .valid) (hk : k < n.data.length) :
    readResult (some n) k = .truncated := by
  simp [readResult, h, hk]

theorem readResult_whole {n : Snapshot} {k : Nat} (h : n.verdict = .valid) (hk : n.data.length ≤ k) :
    readResult (some n) k = .ok := by
  simp [readResult, h, Nat.not_lt.2 hk]

theorem reduceCounters_only (e : SideEffect) : s.OnlyChanges (reduceCounters e s) [.line] := by
  cases e with
  | reduce c t => exact s.putLine_only _
  | none => exact .refl s _
  | dropCompletion i => exact .refl s _

/-- Settles O19: READ_LINE at its release, by the result of its snapshot and by the effect that the snapshot asks for. -/
theorem readLineReducesCounters : Obligations.ReadLineReducesCounters := by
  intro s p k n hs hcmd
  have hexec : exec (.readLine p k) s = .next (s.takeRead p n.cmd k reduceCounters) := by rw [hcmd]; rfl
  rw [hexec]
  refine ⟨fun hv => ?_, fun hv hk => ?_, fun hv hk he => ?_, fun c e hv hk he => ?_⟩
  · exact ⟨_, rfl, State.takeRead_incomplete_answered _ hs (readResult_badArgument k hv) (by decide)⟩
  · exact ⟨_, rfl, State.takeRead_incomplete_answered _ hs (readResult_short hv hk) (by decide)⟩
  · have hf : (s.closeTransaction p).OnlyChanges (reduceCounters n.effect (s.closeTransaction p)) [] := by
      rw [he]
      exact .refl _ _
    exact ⟨_, rfl, (State.takeRead_effect_answered hs (readResult_whole hv hk) hf (by decide) (by decide)).2⟩
  · obtain ⟨heq, hans⟩ := State.takeRead_effect_answered hs (readResult_whole hv hk)
      (reduceCounters_only (s.closeTransaction p) n.effect) (by decide) (by decide)
    refine ⟨_, rfl, hans, ?_⟩
    rw [heq, he]
    exact ⟨rfl, reduceCounter_toNat _ _, reduceCounter_toNat _ _⟩

end Sys2Proof.Machine
end

section
/-! Frames finer than the parts of the state, which local passes and moves of the line state keep: of an engine only flags
other than LINE are written (R31), a completion list only grows at its end (R66), the counts of the line unit stay (R20). -/

namespace Sys2Proof.Machine

/-! ## Engines -/

/-- Of every engine only attention flags other than LINE are written. -/
def State.OnlyOtherFlags (s t : State) : Prop :=
  ∀ q, ∃ f : Attention, f.line = (s.engine q).flags.line ∧ t.engine q = { s.engine q with flags := f }

theorem State.OnlyOtherFlags.of_engine {s t : State} (h : ∀ q, t.engine q = s.engine q) : s.OnlyOtherFlags t :=
  fun q => ⟨_, rfl, h q⟩

theorem State.OnlyOtherFlags.of_frame {s t : State} {l : List Part} (h : s.OnlyChanges t l) (he : Part.engines ∉ l) :
    s.OnlyOtherFlags t := .of_engine (h.engine he)

theorem State.OnlyOtherFlags.refl (s : State) : s.OnlyOtherFlags s := .of_engine fun _ => rfl

theorem State.OnlyOtherFlags.trans {s t u : State} (h : s.OnlyOtherFlags t) (g : t.OnlyOtherFlags u) :
    s.OnlyOtherFlags u := by
  intro q
  obtain ⟨a, ha, ht⟩ := h q
  obtain ⟨b, hb, hu⟩ := g q
  rw [ht] at hb hu
  exact ⟨b, hb.trans ha, hu⟩

theorem State.OnlyOtherFlags.line {s t : State} (h : s.OnlyOtherFlags t) (q : Port) :
    (t.engine q).flags.line = (s.engine q).flags.line := by
  obtain ⟨f, hf, ht⟩ := h q
  rw [ht, ← hf]

theorem State.OnlyOtherFlags.txn {s t : State} (h : s.OnlyOtherFlags t) (q : Port) :
    (t.engine q).txn = (s.engine q).txn := by
  obtain ⟨f, -, ht⟩ := h q
  rw [ht]

theorem State.OnlyRxLoss.onlyOtherFlags {s t : State} (h : s.OnlyRxLoss t) : s.OnlyOtherFlags t := by
  intro q
  obtain ⟨a, b, e⟩ := h q
  exact ⟨{ (s.engine q).flags with rx := a, loss := b }, rfl, e⟩

theorem State.complete_onlyOtherFlags (s : State) (r : Ref) (o : MailOutcome) (c : Option ExpiryCause) :
    s.OnlyOtherFlags (s.complete r o c) := by
  intro q
  rw [State.complete_engine]
  split
  · exact ⟨{ (s.engine q).flags with txDone := true }, rfl, rfl⟩
  · exact ⟨_, rfl, rfl⟩

theorem State.handOff_onlyOtherFlags (s : State) (r : Ref) (rec : MailRecord) (p : Port) (i : SlotNo) :
    s.OnlyOtherFlags (s.handOff r rec p i) :=
  have hw : s.OnlyOtherFlags (s.writeSlot i rec.payload) := .of_frame (s.writeSlot_only i _) (by decide)
  (hw.trans (State.appendRecord_onlyRxLoss _ p _).onlyOtherFlags).trans (State.complete_onlyOtherFlags _ r _ _)

theorem State.passAt_onlyOtherFlags (retry : Bool) (s : State) (r : Ref) : s.OnlyOtherFlags (State.passAt retry s r) := by
  rcases State.passAt_cases retry s r with h | ⟨-, -, h | ⟨rec, p, i, h⟩ | h⟩
  · rw [h]; exact .refl s
  · rw [h]; exact .of_engine fun _ => rfl
  · rw [h]; exact s.handOff_onlyOtherFlags r rec p i
  · rw [h]; exact s.complete_onlyOtherFlags r _ _

/-! ## Completion lists -/

/-- R66: every completion list stands, and may have grown at its end. -/
def State.AddsCompletions (s t : State) : Prop := ∀ q, s.completions q <+: t.completions q

theorem State.AddsCompletions.of_eq {s t : State} (h : ∀ q, t.completions q = s.completions q) : s.AddsCompletions t :=
  fun q => by rw [h q]

theorem State.AddsCompletions.trans {s t u : State} (h : s.AddsCompletions t) (g : t.AddsCompletions u) :
    s.AddsCompletions u := fun q => (h q).trans (g q)

theorem State.complete_addsCompletions (s : State) (r : Ref) (o : MailOutcome) (c : Option ExpiryCause) :
    s.AddsCompletions (s.complete r o c) := by
  intro q
  rw [State.complete_completions]
  split
  next h => rw [h]; exact List.prefix_append _ _
  next => exact List.prefix_rfl

theorem State.handOff_addsCompletions (s : State) (r : Ref) (rec : MailRecord) (p : Port) (i : SlotNo) :
    s.AddsCompletions (s.handOff r rec p i) :=
  have hw : s.AddsCompletions ((s.writeSlot i rec.payload).appendRecord p
      { origin := .handOff r.port rec.channel, arrival := s.line.round, length := rec.payload.length, slot := i }) :=
    .of_eq fun _ => rfl
  hw.trans (State.complete_addsCompletions _ r _ _)

theorem State.passAt_addsCompletions (retry : Bool) (s : State) (r : Ref) :
    s.AddsCompletions (State.passAt retry s r) := by
  rcases State.passAt_cases retry s r with h | ⟨-, -, h | ⟨rec, p, i, h⟩ | h⟩
  · rw [h]; exact .of_eq fun _ => rfl
  · rw [h]; exact .of_eq fun _ => rfl
  · rw [h]; exact s.handOff_addsCompletions r rec p i
  · rw [h]; exact s.complete_addsCompletions r _ _

/-! ## The end of an event -/

/-- What every step of a pass keeps, the end of an event keeps. -/
theorem Upd.finish_keeps {P : State → Prop} (h : ∀ retry s r, P s → P (State.passAt retry s r)) {u : Upd}
    (hu : P u.state) : P u.finish := by
  unfold Upd.finish
  split
  · exact State.localPass_keeps true (h true) hu
  · split
    · exact State.localPass_keeps false (h false) hu
    · exact hu

theorem Upd.finish_onlyOtherFlags (u : Upd) : u.state.OnlyOtherFlags u.finish :=
  Upd.finish_keeps (P := u.state.OnlyOtherFlags) (fun retry t r ht => ht.trans (t.passAt_onlyOtherFlags retry r))
    (.refl _)

theorem Upd.finish_addsCompletions (u : Upd) : u.state.AddsCompletions u.finish :=
  Upd.finish_keeps (P := u.state.AddsCompletions) (fun retry t r ht => ht.trans (t.passAt_addsCompletions retry r))
    (.of_eq fun _ => rfl)

/-! ## Moves of the line state -/

variable (s : State)

/-- R30: a move to OFFLINE is the entry to OFFLINE. -/
theorem State.moveLineState_offline (h : s.member.lineState ≠ .offline) :
    s.moveLineState .offline = (s.putLineState .offline).enterOffline := by
  have hb : (LineState.offline == s.member.lineState) = false := by simpa using Ne.symm h
  simp [State.moveLineState, hb]

theorem State.enterOffline_onlyOtherFlags : s.OnlyOtherFlags s.enterOffline.state := by
  have hline : s.OnlyOtherFlags s.lineOffline.state := .of_frame s.lineOffline_only (by decide)
  have hall : s.lineOffline.state.OnlyOtherFlags s.lineOffline.state.withdrawAll.state :=
    Upd.each_inv (s.lineOffline.state.OnlyOtherFlags) _ State.withdrawOne
      (fun r _ t ht => by
        unfold State.withdrawOne
        split
        · exact ht.trans (t.complete_onlyOtherFlags r _ _)
        · exact ht) (Upd.start _) (.refl _)
  exact hline.trans (hall.trans (.of_frame (State.putFault_only _ _) (by decide)))

/-- A move of the line state does not touch LINE: the one who asks for it announces it (R31). -/
theorem State.moveLineState_onlyOtherFlags (l : LineState) : s.OnlyOtherFlags (s.moveLineState l).state := by
  unfold State.moveLineState
  split
  · exact .refl s
  · cases l with
    | offline =>
      exact (State.OnlyOtherFlags.of_engine (t := s.putLineState .offline) fun _ => rfl).trans
        (s.putLineState .offline).enterOffline_onlyOtherFlags
    | syncing => exact .of_engine fun _ => rfl
    | leaving =>
      exact (State.OnlyOtherFlags.of_engine (t := s.putLineState .leaving) fun _ => rfl).trans
        (.of_frame (State.abandonReception_only _) (by decide))
    | active => exact .of_engine fun _ => rfl

/-- The turn, the round, the own frame and the error counters of the line unit. -/
def LineUnit.SameCounts (l m : LineUnit) : Prop :=
  m.turn = l.turn ∧ m.round = l.round ∧ m.own = l.own ∧ m.checkErrors = l.checkErrors ∧ m.turnSlips = l.turnSlips

theorem State.abandonReception_sameCounts : s.line.SameCounts s.abandonReception.state.line := by
  have hs := s.endReceptionSlot_eq.1
  unfold State.abandonReception
  split
  · split
    · simp only [Upd.on_parts, State.putLine_line, hs]
      exact ⟨rfl, rfl, rfl, rfl, rfl⟩
    · exact ⟨rfl, rfl, rfl, rfl, rfl⟩
  · exact ⟨rfl, rfl, rfl, rfl, rfl⟩

theorem State.moveLineState_sameCounts (l : LineState) : s.line.SameCounts (s.moveLineState l).state.line := by
  unfold State.moveLineState
  split
  · exact ⟨rfl, rfl, rfl, rfl, rfl⟩
  · cases l with
    | offline =>
      simp only [State.enterOffline_line]
      exact ⟨rfl, rfl, rfl, rfl, rfl⟩
    | syncing => exact ⟨rfl, rfl, rfl, rfl, rfl⟩
    | leaving => exact (s.putLineState .leaving).abandonReception_sameCounts
    | active => exact ⟨rfl, rfl, rfl, rfl, rfl⟩

/-- R31: LINE is set at every port exactly if line state or mode differ from those before, whose LINE stands till then. -/
theorem State.announceLine_lineFollows {b : State} (h : ∀ q, (s.engine q).flags.line = (b.engine q).flags.line) :
    b.LineFollows (State.announceLine b s) (s.member.lineState ≠ b.member.lineState ∨ s.mode ≠ b.mode) := by
  intro q
  unfold State.announceLine
  split
  next he =>
    simp only [Bool.and_eq_true, beq_iff_eq] at he
    exact ⟨fun hc => (hc.elim (· he.1.symm) (· he.2.symm)).elim, fun _ => h q⟩
  next he =>
    refine ⟨fun _ => by rw [State.raiseLine_engine], fun hc => (he ?_).elim⟩
    simp only [not_or, not_not] at hc
    simp [hc.1, hc.2]

/-- R23, R31: new votes set LINE exactly if line state or mode change. -/
theorem State.applyVotes_lineFollows (v : Vector Vote 3) :
    s.LineFollows (s.applyVotes v).state
      ((s.applyVotes v).state.member.lineState ≠ s.member.lineState ∨ (s.applyVotes v).state.mode ≠ s.mode) := by
  have hm : (s.applyVotes v).state.member
      = ((s.putVotes v).moveLineState (nextLineState s.member.lineState (votesEmpty v) s.inFlight)).state.member :=
    (State.announceLine_only _ s).member (by decide) (by decide) (by decide)
  rw [State.mode, hm]
  exact State.announceLine_lineFollows _ ((s.putVotes v).moveLineState_onlyOtherFlags _).line

theorem State.applyVotes_txn (v : Vector Vote 3) (q : Port) :
    ((s.applyVotes v).state.engine q).txn = (s.engine q).txn := by
  have hmove := ((s.putVotes v).moveLineState_onlyOtherFlags
    (nextLineState s.member.lineState (votesEmpty v) s.inFlight)).txn q
  refine Eq.trans ?_ hmove
  simp only [State.applyVotes, Upd.on_parts, State.announceLine]
  split
  · rfl
  · rw [State.raiseLine_engine]

end Sys2Proof.Machine
end

section
/-! O14: a VOTE (R23): its refusals, and what a new vote brings (R24 to R31). -/

namespace Sys2Proof.Machine

/-! ## Votes, mode and line state -/

theorem votesEmpty_iff (v : Vector Vote 3) : votesEmpty v = true ↔ ∀ q : Port, v[q] = .none := by
  unfold votesEmpty
  rw [Vector.all_eq_true]
  simp only [beq_iff_eq]
  exact ⟨fun h q => h q.1 q.2, fun h i hi => h ⟨i, hi⟩⟩

theorem votes_any_iff (v : Vector Vote 3) (x : Vote) : v.any (· == x) = true ↔ ∃ q : Port, v[q] = x := by
  rw [Vector.any_eq_true]
  simp only [beq_iff_eq]
  exact ⟨fun ⟨i, hi, h⟩ => ⟨⟨i, hi⟩, h⟩, fun ⟨q, h⟩ => ⟨q.1, q.2, h⟩⟩

/-- R24: FULL by any vote FULL. -/
theorem State.mode_full {s : State} (h : ∃ q, s.vote q = .full) : s.mode = some .full := by
  simp only [State.mode, modeOf, (votes_any_iff _ _).2 h, if_true]

/-- R24: LISTEN by votes of which one is LISTEN and none is FULL. -/
theorem State.mode_listen {s : State} (hf : ∀ q, s.vote q ≠ .full) (h : ∃ q, s.vote q = .listen) :
    s.mode = some .listen := by
  have hn : ¬ s.member.votes.any (· == .full) = true := fun e => by
    obtain ⟨q, hq⟩ := (votes_any_iff _ _).1 e
    exact hf q hq
  simp only [State.mode, modeOf, if_neg hn, (votes_any_iff _ _).2 h, if_true]

/-- R24: no mode without a vote. -/
theorem State.mode_none {s : State} (h : ∀ q, s.vote q = .none) : s.mode = none :=
  modeOf_of_votesEmpty ((votesEmpty_iff _).2 h)

variable {s : State} {p : Port} {v : Vote}

/-! ## The body of VOTE -/

theorem voteBody_refused {b : Byte} (rest : List Byte) (h : 2 < b.toNat) :
    voteBody p (b :: rest) s = (s, .badArgument) := by
  simp only [voteBody, Vote.ofByte_none h]

theorem voteBody_same (rest : List Byte) (h : v = s.vote p) : voteBody p (v.code :: rest) s = (s, .ok) := by
  simp [voteBody, h]

theorem voteBody_new (rest : List Byte) (h : v ≠ s.vote p) :
    voteBody p (v.code :: rest) s = ((s.applyVotes (s.member.votes.set p v)).finish, .ok) := by
  simp [voteBody, h]

/-- R23: the part after a VOTE that gives port `p` the new value `v`, at its release. -/
def State.voted (s : State) (p : Port) (v : Vote) : State :=
  ((s.closeTransaction p).applyVotes (s.member.votes.set p v)).finish.report p .ok

/-- The state in which the votes of that VOTE have their new values, the transaction being over. -/
def State.revoted (s : State) (p : Port) (v : Vote) : State :=
  (s.closeTransaction p).putVotes (s.member.votes.set p v)

theorem execVote_new (rest : List Byte) (hin : s.InTransaction p) (h : v ≠ s.vote p) :
    exec (.vote p (v.code :: rest)) s = .next (s.voted p v) := by
  have hb : voteBody p (v.code :: rest) (s.closeTransaction p)
      = (((s.closeTransaction p).applyVotes (s.member.votes.set p v)).finish, .ok) := voteBody_new rest h
  have e := s.takeCommand_eq p .vote (voteBody p (v.code :: rest)) hin
  rw [hb] at e
  exact congrArg Host.Outcome.next e

/-! ## The state after a new vote -/

variable (s p v)

theorem State.voted_only :
    s.OnlyChanges (s.voted p v)
      [.votes, .lineState, .line, .fault, .boxes, .completions, .refs, .store, .queues, .engines] :=
  ((((s.closeTransaction_only p).mono (by decide)).seq (State.applyVotes_only _ _) (by decide)).seq
    (Upd.finish_only _) (by decide)).seq (State.report_only _ p .ok) (by decide)

theorem State.voted_member :
    (s.voted p v).member
      = { s.member with
          votes := s.member.votes.set p v,
          lineState := nextLineState s.member.lineState (votesEmpty (s.member.votes.set p v)) s.inFlight } := by
  rw [State.voted, (State.report_only _ _ _).member (by decide) (by decide) (by decide),
    (Upd.finish_only _).member (by decide) (by decide) (by decide), State.applyVotes_member]
  rfl

theorem State.voted_vote (q : Port) : (s.voted p v).vote q = if q = p then v else s.vote q := by
  simp only [State.vote, State.voted_member, Fin.getElem_fin, Vector.getElem_set, eq_comm (a := q)]
  simp only [Fin.val_inj]

/-- R25, R26, R28, R29: the line state by the votes after the change. -/
theorem State.voted_lineState {empty : Bool} (h : empty = true ↔ ∀ q, (s.voted p v).vote q = .none) :
    (s.voted p v).member.lineState = nextLineState s.member.lineState empty s.line.own.isSome := by
  have he : votesEmpty (s.voted p v).member.votes = empty :=
    Bool.eq_iff_iff.2 ((votesEmpty_iff _).trans h.symm)
  rw [State.voted_member] at he ⊢
  rw [← he]
  rfl

theorem State.voted_line :
    (s.voted p v).line
      = ((s.revoted p v).moveLineState (s.voted p v).member.lineState).state.line := by
  rw [State.voted_member, State.voted, (State.report_only _ _ _).line (by decide), (Upd.finish_only _).line (by decide),
    State.applyVotes_line]
  rfl

/-- R26: the line unit as the sync search starts. -/
theorem State.voted_line_syncing (h : s.member.lineState = .offline) (hv : ∃ q, (s.voted p v).vote q ≠ .none) :
    (s.voted p v).line = { s.line with syncIdle := 0, busyUntilIdle := true } := by
  have hl := s.voted_lineState p v (empty := false) (by simpa using hv)
  rw [State.voted_line, hl, h]
  simp [State.moveLineState, nextLineState, h, State.startSyncSearch, State.revoted]

theorem State.voted_sameCounts : s.line.SameCounts (s.voted p v).line := by
  rw [State.voted_line]
  exact State.moveLineState_sameCounts _ _

theorem State.voted_lineFollows :
    s.LineFollows (s.voted p v)
      ((s.voted p v).member.lineState ≠ s.member.lineState ∨ (s.voted p v).mode ≠ s.mode) := by
  have hfin := ((s.closeTransaction p).applyVotes (s.member.votes.set p v)).finish_onlyOtherFlags
  have hm : (s.voted p v).member = ((s.closeTransaction p).applyVotes (s.member.votes.set p v)).state.member :=
    (Upd.finish_only _).member (by decide) (by decide) (by decide)
  have hreport : ∀ q, ((s.voted p v).engine q).flags.line
      = (((s.closeTransaction p).applyVotes (s.member.votes.set p v)).state.engine q).flags.line := fun q => by
    rw [← hfin.line q, State.voted, State.report_engine]
    split
    next h => rw [h]
    next => rfl
  have hclose : ∀ q, ((s.closeTransaction p).engine q).flags.line = (s.engine q).flags.line := fun q => by
    rw [State.closeTransaction_engine]
    split
    next h => rw [h]
    next => rfl
  intro q
  have hfollows := (s.closeTransaction p).applyVotes_lineFollows (s.member.votes.set p v) q
  rw [State.mode, hm, hreport, ← hclose]
  exact hfollows

theorem State.voted_engine : ((s.voted p v).engine p).lastResult = .ok ∧ ((s.voted p v).engine p).txn = none := by
  rw [State.voted, State.report_engine, if_pos rfl]
  refine ⟨rfl, ?_⟩
  rw [(Upd.finish_onlyOtherFlags _).txn p, State.applyVotes_txn, State.closeTransaction_engine, if_pos rfl]

/-- Settles O14: the checks of VOTE, and the views of the state after a new vote. -/
theorem voteMovesLineStateAndMode : Obligations.VoteMovesLineStateAndMode := by
  intro s p v rest hin
  refine ⟨⟨_, rfl, State.takeCommand_refused .vote hin rfl⟩,
    fun b hb => ⟨_, rfl, State.takeCommand_refused .vote hin (voteBody_refused rest hb)⟩,
    fun hv => ⟨_, rfl, State.takeCommand_refused .vote hin (voteBody_same rest hv)⟩, fun hv => ?_⟩
  obtain ⟨hres, htxn⟩ := s.voted_engine p v
  refine ⟨_, execVote_new rest hin hv, hres, htxn, by rw [s.voted_vote, if_pos rfl],
    fun q hq => by rw [s.voted_vote, if_neg hq], State.mode_full, State.mode_listen, State.mode_none,
    fun hne => ?_, fun hall => ?_, s.voted_line_syncing p v, s.voted_sameCounts p v, s.voted_lineFollows p v,
    s.voted_only p v⟩
  · rw [s.voted_lineState p v (empty := false) (by simpa using hne)]
    cases s.member.lineState <;> rfl
  · rw [s.voted_lineState p v (empty := true) (by simpa using hall)]
    cases s.member.lineState <;> cases s.line.own <;> rfl

end Sys2Proof.Machine
end

section
/-! O15: entry to OFFLINE (R30) by the withdrawal of the last vote: the line unit (R11), the reception slot (R18), the
withdrawals in the order of the pending list (R71), the clean rounds (R49). -/

namespace Sys2Proof.Machine

/-! ## Withdrawals in list order -/

/-- The completions that the withdrawals of the references `l` bring to port `q`, in the order of `l` (R71). -/
def State.withdrawnAt (s : State) (l : List Ref) (q : Port) : List MailboxIndex :=
  (l.filter (fun r => s.withdrawable r && r.port == q)).map (·.index)

theorem State.withdrawnAt_congr {s t : State} {l : List Ref} (h : ∀ r ∈ l, t.mailbox r = s.mailbox r) (q : Port) :
    t.withdrawnAt l q = s.withdrawnAt l q := by
  unfold State.withdrawnAt
  rw [List.filter_congr fun r hr => by rw [State.withdrawable_congr (h r hr)]]

theorem State.withdrawnAt_cons (s : State) (r : Ref) (l : List Ref) (q : Port) :
    s.withdrawnAt (r :: l) q
      = if s.withdrawable r = true ∧ q = r.port then r.index :: s.withdrawnAt l q else s.withdrawnAt l q := by
  unfold State.withdrawnAt
  rw [List.filter_cons]
  simp only [Bool.and_eq_true, beq_iff_eq, eq_comm (a := q)]
  split <;> rfl

theorem State.withdrawOne_completions (s : State) (r : Ref) (q : Port) :
    (State.withdrawOne r s).state.completions q
      = if s.withdrawable r = true ∧ q = r.port then s.completions q ++ [r.index] else s.completions q := by
  unfold State.withdrawOne
  by_cases hw : s.withdrawable r = true
  · simp only [hw, if_true, State.completeUpd, State.complete_completions, true_and]
    split
    next h => rw [h]
    next => rfl
  · simp [hw]

/-- R71: withdrawals in the order of a list, each reference once, append in this order. -/
theorem Upd.each_withdrawOne_completions {l : List Ref} (hl : l.Nodup) (u : Upd) (q : Port) :
    (u.each l State.withdrawOne).state.completions q = u.state.completions q ++ u.state.withdrawnAt l q := by
  induction l generalizing u with
  | nil => exact (List.append_nil _).symm
  | cons r l ih =>
    obtain ⟨hr, hl⟩ := List.nodup_cons.1 hl
    have hrest : ∀ x ∈ l, (State.withdrawOne r u.state).state.mailbox x = u.state.mailbox x := fun x hx =>
      (State.withdrawOne_leaves (.inr (by rintro rfl; exact hr hx))).mailbox
    rw [Upd.each_cons, ih hl, (Upd.andThen_parts _ _).1, State.withdrawnAt_congr hrest, State.withdrawOne_completions,
      State.withdrawnAt_cons]
    split
    · rw [List.append_assoc]; rfl
    · rfl

/-! ## Entry to OFFLINE -/

variable (s : State)

/-- R30: the part after entry to OFFLINE, before LINE is announced. -/
def State.wentOffline : State := (s.putLineState .offline).enterOffline.state

variable {s} {r : Ref}

theorem State.wentOffline_tail_leaves (s : State) (r : Ref) :
    (s.putLineState .offline).lineOffline.state.withdrawAll.state.Leaves s.wentOffline r :=
  .of_frame (State.putFault_only _ _) (by decide) (by decide) (by decide) (by decide) r

/-- R71: a mailbox that is not withdrawable is left alone. -/
theorem State.wentOffline_leaves (h : s.withdrawable r = false) : s.Leaves s.wentOffline r :=
  have ho := s.lineOffline_leaves r
  (ho.trans (Upd.each_withdrawOne_leaves _ (Upd.start _) ((State.withdrawable_congr ho.mailbox).trans h))).trans
    (s.wentOffline_tail_leaves r)

/-- R71: a withdrawable mailbox of the pending list completes WITHDRAWN. -/
theorem State.wentOffline_withdraws (h : s.withdrawable r = true) (hr : r ∈ s.sched.refs) :
    s.Completed s.wentOffline r .withdrawn none := by
  have ho := s.lineOffline_leaves r
  have hc := Upd.each_withdrawOne_completes (s.putLineState .offline).lineOffline.state.sched.refs
    (Upd.start (s.putLineState .offline).lineOffline.state) ((State.withdrawable_congr ho.mailbox).trans h)
    (by rw [s.lineOffline_refs]; exact hr)
  obtain ⟨h1, h2, h3, h4, h5, h6, h7, h8, h9⟩ := hc.leaves (s.wentOffline_tail_leaves r)
  exact ⟨h1, h2, h3, h4, h5.trans (congrArg Mailbox.record ho.mailbox), h6.trans (congrArg Mailbox.attempts ho.mailbox),
    h7, h8, h9⟩

/-- R71: the completions of a port at entry to OFFLINE. -/
theorem State.wentOffline_completions (hn : s.sched.refs.Nodup) (q : Port) :
    s.wentOffline.completions q = s.completions q ++ s.withdrawnAt s.sched.refs q := by
  have hrefs := s.lineOffline_refs
  have hc := (State.lineOffline_only (s.putLineState .offline)).completions (by decide) q
  have hw := Upd.each_withdrawOne_completions (l := (s.putLineState .offline).lineOffline.state.sched.refs)
    (by rw [hrefs]; exact hn) (Upd.start (s.putLineState .offline).lineOffline.state) q
  refine Eq.trans hw ?_
  rw [hrefs]
  exact congrArg₂ _ hc (State.withdrawnAt_congr (fun r _ => (s.lineOffline_leaves r).mailbox) q)

/-- R18: no slot is the reception slot. -/
theorem State.wentOffline_rxSlot (s : State) : s.wentOffline.store.rxSlot = none := by
  have hl : (s.putLineState .offline).lineOffline.state.store.rxSlot = none := by
    simp [State.lineOffline]
  have hw : (s.putLineState .offline).lineOffline.state.withdrawAll.state.store
      = (s.putLineState .offline).lineOffline.state.store := (State.withdrawAll_only _).2 .store (by decide)
  exact (congrArg FrameStore.rxSlot hw).trans hl

/-- R49: the clean-round count is 0. -/
theorem State.wentOffline_fault (s : State) : s.wentOffline.fault = { s.fault with cleanRounds := 0 } := by
  have hl : (s.putLineState .offline).lineOffline.state.fault = s.fault := (State.lineOffline_only _).2 .fault (by decide)
  have hw : (s.putLineState .offline).lineOffline.state.withdrawAll.state.fault = s.fault :=
    Eq.trans ((State.withdrawAll_only _).2 .fault (by decide)) hl
  exact congrArg (fun f : Confinement => { f with cleanRounds := 0 }) hw

/-! ## The last vote withdrawn -/

variable {p : Port} {v : Vote}

/-- The state after the withdrawal is the one after entry to OFFLINE, with LINE, local pass and report. -/
theorem State.applyVotes_wentOffline (h : s.member.lineState ≠ .offline) (hn : (s.voted p v).member.lineState = .offline) :
    ((s.closeTransaction p).applyVotes (s.member.votes.set p v)).state
      = State.announceLine (s.closeTransaction p) (s.revoted p v).wentOffline := by
  rw [State.voted_member] at hn
  have hnext : nextLineState (s.closeTransaction p).member.lineState (votesEmpty (s.member.votes.set p v))
      (s.closeTransaction p).inFlight = .offline := hn
  rw [State.applyVotes, hnext]
  exact congrArg (fun u : Upd => State.announceLine (s.closeTransaction p) u.state)
    (State.moveLineState_offline (s.revoted p v) h)

theorem State.report_leaves (s : State) (p : Port) (x : Result) (r : Ref) : s.Leaves (s.report p x) r :=
  .of_only (s.report_only p x) (by decide) (by decide) (by decide) (fun h => by
    rw [State.report_engine]
    split
    next he => rw [← he]; exact h
    next => exact h)

section
variable (h : s.member.lineState ≠ .offline) (hn : (s.voted p v).member.lineState = .offline)
include h hn

/-- What follows entry to OFFLINE leaves a mailbox that no local pass decides. -/
theorem State.voted_offline_leaves (hu : (s.revoted p v).wentOffline.Undecided r) :
    (s.revoted p v).wentOffline.Leaves (s.voted p v) r := by
  have hl := State.announceLine_leaves (s.closeTransaction p) (s.revoted p v).wentOffline r
  rw [← State.applyVotes_wentOffline h hn] at hl
  exact (hl.trans (Upd.finish_leaves (hu.of_mailbox hl.mailbox))).trans (State.report_leaves _ p .ok r)

/-- What follows entry to OFFLINE changes what a local pass may change. -/
theorem State.voted_offline_only : (s.revoted p v).wentOffline.OnlyChanges (s.voted p v) passParts := by
  have hl := State.announceLine_only (s.revoted p v).wentOffline (s.closeTransaction p)
  rw [← State.applyVotes_wentOffline h hn] at hl
  exact ((hl.mono (by decide)).trans (Upd.finish_only _)).seq (State.report_only _ p .ok) (by decide)

theorem State.voted_offline_rxSlot : (s.voted p v).store.rxSlot = none := by
  have hl : (State.announceLine (s.closeTransaction p) (s.revoted p v).wentOffline).store
      = (s.revoted p v).wentOffline.store := (State.announceLine_only _ _).2 .store (by decide)
  rw [← State.applyVotes_wentOffline h hn] at hl
  simp only [State.voted, State.report_fields]
  rw [(Upd.finish_sameSlotAndLine _).1, hl]
  exact State.wentOffline_rxSlot _

theorem State.voted_offline_completions : (s.revoted p v).wentOffline.AddsCompletions (s.voted p v) := by
  have hl := (State.announceLine_only (s.revoted p v).wentOffline (s.closeTransaction p)).completions (by decide)
  rw [← State.applyVotes_wentOffline h hn] at hl
  exact (State.AddsCompletions.of_eq hl).trans
    ((Upd.finish_addsCompletions _).trans (.of_eq ((State.report_only _ p .ok).completions (by decide))))

theorem State.voted_offline_line : (s.voted p v).line = s.line.atOffline := by
  rw [State.voted_line, hn]
  exact State.moveLineState_offline_line (s.revoted p v) h

end

/-- R71, R75: a withdrawable mailbox is on the pending list. -/
theorem State.PendingListSound.mem_of_withdrawable (hp : s.PendingListSound) (hw : s.withdrawable r = true) :
    r ∈ s.sched.refs := by
  refine (hp.2 r.port r.index).2 ?_
  simp only [State.withdrawable, Bool.and_eq_true, Bool.or_eq_true, beq_iff_eq] at hw
  rcases hw.2 with e | e <;> rw [e] <;> rfl

/-- R28: the withdrawal of the last vote, without an own frame, leads to OFFLINE. -/
theorem State.voted_none_last (hq : ∀ q, q ≠ p → s.vote q = .none)
    (hst : s.member.lineState = .syncing ∨ s.member.lineState = .active ∧ s.line.own = none) :
    (∀ q, (s.voted p .none).vote q = .none) ∧ (s.voted p .none).member.lineState = .offline := by
  have hall : ∀ q, (s.voted p .none).vote q = .none := fun q => by
    rw [State.voted_vote]
    split
    · rfl
    next hne => exact hq q hne
  refine ⟨hall, ?_⟩
  rw [s.voted_lineState p .none (empty := true) (by simpa using hall)]
  rcases hst with e | ⟨e, ho⟩
  · rw [e]; rfl
  · rw [e, ho]; rfl

/-- Settles O15: entry to OFFLINE, and what local pass and report leave of it. -/
theorem entryToOfflineWithdraws : Obligations.EntryToOfflineWithdraws := by
  intro s p rest hin hpend hp hq hst
  obtain ⟨hall, hoff⟩ := State.voted_none_last hq hst
  have h : s.member.lineState ≠ .offline := by rcases hst with e | ⟨e, -⟩ <;> rw [e] <;> decide
  have honly := State.voted_offline_only h hoff
  have hline := State.voted_offline_line h hoff
  have hkeep := s.voted_only p .none
  refine ⟨_, execVote_new (v := .none) rest hin (Ne.symm hp), hoff, State.mode_none hall, ?_⟩
  rw [hline]
  refine ⟨rfl, rfl, rfl, rfl, rfl, rfl, rfl, State.voted_offline_rxSlot h hoff, ?_, fun r hw => ?_, fun r hl hw => ?_,
    fun q => ?_, hkeep.2 .seq (by decide), hkeep.2 .channels (by decide), hkeep.2 .entries (by decide)⟩
  · exact Eq.trans (honly.2 .fault (by decide)) (State.wentOffline_fault _)
  · have hc : (s.revoted p .none).Completed (s.revoted p .none).wentOffline r .withdrawn none :=
      State.wentOffline_withdraws hw (hpend.mem_of_withdrawable hw)
    exact hc.leaves (State.voted_offline_leaves h hoff (.of_state (by rw [hc.1]; decide) (by rw [hc.1]; decide)))
  · have hleave : (s.revoted p .none).Leaves (s.revoted p .none).wentOffline r := State.wentOffline_leaves hw
    have hu : (s.revoted p .none).Undecided r := .inl hl
    exact (hleave.trans (State.voted_offline_leaves h hoff (hu.of_mailbox hleave.mailbox))).mailbox
  · have hc := State.wentOffline_completions (s := s.revoted p .none) hpend.1 q
    have hadd := State.voted_offline_completions h hoff q
    rw [hc] at hadd
    exact hadd

end Sys2Proof.Machine
end

section
/-! O20, O21: RESUME (R48), and the append of a raw result to the fault window (R38 to R40). -/

namespace Sys2Proof.Machine

/-! ## RESUME -/

theorem resumeBody_silenced {s : State} (b : Byte) (rest : List Byte) (h : s.fault.state = .silenced) :
    resumeBody (b :: rest) s = (s, .notReady) := by
  simp [resumeBody, h]

theorem resumeBody_talking {s : State} (b : Byte) (rest : List Byte)
    (h : s.fault.state = .engaged ∨ s.fault.state = .guarded) : resumeBody (b :: rest) s = (s, .notPending) := by
  rcases h with h | h <;> simp [resumeBody, h]

/-- R48: the fault confinement unit as RESUME ends READY_TO_RESUME. -/
def Confinement.resumed (f : Confinement) : Confinement :=
  { f with window := [], state := .engaged, cleanRounds := 0 }

theorem resumeBody_ready {s : State} (b : Byte) (rest : List Byte) (h : s.fault.state = .readyToResume) :
    resumeBody (b :: rest) s = (s.confine s.fault.resumed, .ok) := by
  simp [resumeBody, h, Confinement.resumed]

/-- R51: RESUME changes the confinement state, so LINE is set at every port. -/
theorem State.confine_resumed_engine {s : State} (h : s.fault.state = .readyToResume) (q : Port) :
    (s.confine s.fault.resumed).engine q = { s.engine q with flags := { (s.engine q).flags with line := true } } := by
  have hne : s.fault.resumed.state ≠ s.fault.state := by rw [h]; nofun
  rw [State.confine_engine, if_neg hne]

/-- Settles O20: the body of RESUME by the confinement state, answered at the release. -/
theorem resumeEndsReadyToResume : Obligations.ResumeEndsReadyToResume := by
  intro s p hin
  refine ⟨⟨_, rfl, State.takeCommand_refused .resume hin rfl⟩,
    fun b rest => ⟨fun h => ?_, fun h => ?_, fun h => ?_⟩⟩
  · exact ⟨_, rfl, State.takeCommand_refused .resume hin (resumeBody_silenced b rest h)⟩
  · exact ⟨_, rfl, State.takeCommand_refused .resume hin (resumeBody_talking b rest h)⟩
  · have heq := s.takeCommand_eq p .resume (resumeBody (b :: rest)) hin
    rw [resumeBody_ready b rest (s := s.closeTransaction p) h] at heq
    have heng := State.confine_resumed_engine (s := s.closeTransaction p) h
    simp only [State.closeTransaction_fields] at heq heng
    refine ⟨_, rfl, ?_⟩
    rw [heq]
    refine ⟨by simp [Confinement.resumed], by simp, by simp [heng], fun q => ?_, ?_⟩
    · by_cases hq : q = p
      · subst hq; simp [heng]
      · simp [heng, hq]
    · exact (((s.closeTransaction_only p).mono (by decide)).seq (State.confine_only _ _) (by decide)).seq
        (State.report_only _ p _) (by decide)

/-! ## The append of a raw result -/

/-- R38: the outcome goes to the end; of a full window the oldest is lost. -/
theorem appendOutcome_eq_drop {w : List Health} (x : Health) (h : w.length ≤ 16) :
    appendOutcome w x = w.drop (if w.length = 16 then 1 else 0) ++ [x] := by
  unfold appendOutcome windowSize
  by_cases hw : w.length = 16
  · simp [hw]
  · rw [if_pos (by omega), if_neg hw, List.drop_zero]

/-- R39: the results after which the health outcome is ok. -/
theorem RawResult.health_ok_iff (raw : RawResult) :
    raw.health = .ok ↔ raw = .sentClean ∨ raw = .accept ∨ raw = .defer ∨ raw = .refuse := by
  cases raw <;> decide

/-- R39, R40: the fault confinement unit after a raw result. -/
def Confinement.appended (f : Confinement) (raw : RawResult) : Confinement :=
  let w := appendOutcome f.window raw.health
  let st := nextConfinement f.state (failures w)
  if st = .silenced ∧ f.state ≠ .silenced then { window := w, state := st, cleanRounds := 0, spoiled := true }
  else { f with window := w, state := st }

theorem State.appendHealth_eq (s : State) (raw : RawResult) : s.appendHealth raw = s.confine (s.fault.appended raw) := by
  unfold State.appendHealth Confinement.appended
  simp only [Bool.and_eq_true, beq_iff_eq, bne_iff_ne]
  split <;> rfl

theorem State.appendHealth_fault_eq (s : State) (raw : RawResult) :
    (s.appendHealth raw).fault = s.fault.appended raw := by
  rw [s.appendHealth_eq raw, State.confine_fault]

/-- R40: entry to SILENCED spoils the round, with the clean-round count at 0. -/
theorem Confinement.appended_enters {f : Confinement} {raw : RawResult} (h : (f.appended raw).state = .silenced)
    (hf : f.state ≠ .silenced) : (f.appended raw).spoiled = true ∧ (f.appended raw).cleanRounds = 0 := by
  unfold Confinement.appended at h ⊢
  simp only [] at h ⊢
  split
  · exact ⟨rfl, rfl⟩
  next hn =>
    rw [if_neg hn] at h
    exact absurd ⟨h, hf⟩ hn

/-- R44: an append that leaves the node other than SILENCED leaves marker and clean-round count. -/
theorem Confinement.appended_stays {f : Confinement} {raw : RawResult} (h : (f.appended raw).state ≠ .silenced) :
    (f.appended raw).spoiled = f.spoiled ∧ (f.appended raw).cleanRounds = f.cleanRounds := by
  unfold Confinement.appended at h ⊢
  simp only [] at h ⊢
  split
  next hs =>
    rw [if_pos hs] at h
    exact absurd hs.1 h
  · exact ⟨rfl, rfl⟩

/-- Settles O21: the window by its length, the state by its failures, marker and LINE by the change of state. -/
theorem appendedOutcomeMovesConfinement : Obligations.AppendedOutcomeMovesConfinement := by
  intro s raw hlen
  obtain ⟨hw, hst⟩ := s.appendHealth_fault raw
  have hf := s.appendHealth_fault_eq raw
  refine ⟨_, _, rfl, rfl, ⟨raw.health, by rw [hw, appendOutcome_eq_drop _ hlen], raw.health_ok_iff⟩, fun h => ?_,
    fun h => ?_, fun ⟨hg, hs⟩ => ?_, fun hs => ?_, ?_, s.appendHealth_only raw⟩
  · rw [hst, hw, h]; rfl
  · rw [hst, hw, h]; rfl
  · rw [hf] at hs ⊢
    exact Confinement.appended_enters hs (by rw [hg]; decide)
  · rw [hf] at hs ⊢
    exact (Confinement.appended_stays hs).1
  · rw [s.appendHealth_eq raw]
    exact s.confine_lineFollows _

end Sys2Proof.Machine
end

section
/-! The frame of every row: which parts of the state a command of the queue may change at all. -/

namespace Sys2Proof.Machine

/-- What the release of a command may change whose own effects stand in `l`. -/
abbrev releaseParts (l : List Part) : List Part := .engines :: .queues :: l

/-- What new votes and the local pass after them may change. -/
abbrev voteParts : List Part := .votes :: .queues :: moveParts

/-- What a port reset may change (R166). -/
abbrev portResetParts : List Part :=
  [.votes, .lineState, .line, .fault, .boxes, .completions, .refs, .orders, .seq, .channels, .entries, .store,
   .queues, .engines]

/-- The parts of the state that a row may change. -/
def rowParts : Instr → List Part
  | .deviceReset =>
    [.line, .votes, .lineState, .config, .fault, .boxes, .completions, .refs, .rotation, .orders, .seq, .channels,
     .entries, .store, .queues, .engines, .inReset]
  | .deviceResetEnds => [.inReset]
  | .portReset _ => portResetParts
  | .prstRelease _ | .transactionBegin _ => [.engines]
  | .readSnapshot _ _ _ | .transactionWithoutCommand _ | .badCommand _ _ _ | .nop _ _ | .acknowledge _ _
  | .readMailbox _ _ | .readChannel _ _ | .readEntry _ _ | .readQueue _ _ | .peek _ _ => releaseParts []
  | .vote _ _ => releaseParts voteParts
  | .configure _ _ => releaseParts [.config, .seq]
  | .readLine _ _ => releaseParts [.line]
  | .resume _ _ => releaseParts [.fault]
  | .load _ _ | .clear _ _ => releaseParts [.boxes, .completions]
  | .request _ _ | .abort _ _ | .setQueue _ _ | .release _ _ | .take _ _ => releaseParts passParts
  | .readCompletion _ _ => releaseParts [.completions]
  | .claim _ _ | .halt _ _ | .openChannel _ _ => releaseParts [.channels]
  | .releaseChannel _ _ => releaseParts [.channels, .seq]
  | .setEntry _ _ | .freeEntry _ _ => releaseParts [.entries]
  | .setPort _ _ => releaseParts [.orders]
  | .resetPort _ _ => releaseParts portResetParts
  | .turnBegins => .line :: .seq :: .rotation :: .draws :: boundaryParts
  | .activityBegins | .turnCheck _ => .line :: boundaryParts
  | .receptionEnd _ => .line :: .lineState :: .seq :: boundaryParts
  | .collision _ _ | .checkWordReadBack | .transmissionEnd _ => endParts
  | .replyByteStart | .replyByteEnd | .lineTimeEnd | .syncEntryIdleSeen => [.line]
  | .syncIdleCount => [.line, .lineState, .engines, .fault, .boxes, .seq, .rotation]

/-! ## Releases -/

variable (s : State) {l : List Part}

theorem State.atRelease_only (p : Port) (fits : Transaction → Bool) (act : Option Snapshot → State → State)
    (h : ∀ n (u : State), u.OnlyChanges (act n u) (releaseParts l)) :
    s.OnlyChanges (s.atRelease p fits act) (releaseParts l) :=
  State.atRelease_keeps (P := fun u => s.OnlyChanges u (releaseParts l))
    (fun _ _ hf hu => hu.seq hf (by simp)) p fits act (fun n u hu => hu.trans (h n u)) (.refl s _)

theorem State.takeCode_only (p : Port) (code : Byte) (body : State → State × Result)
    (h : ∀ u : State, u.OnlyChanges (body u).1 (releaseParts l)) :
    s.OnlyChanges (s.takeCode p code body) (releaseParts l) :=
  State.takeCode_keeps (P := fun u => s.OnlyChanges u (releaseParts l))
    (fun _ _ hf hu => hu.seq hf (by simp)) p code body (fun u hu => hu.trans (h u)) (.refl s _)

theorem State.takeRead_only (p : Port) (cmd : ReadCommand) (k : Nat) (effect : SideEffect → State → State)
    (h : ∀ e (u : State), u.OnlyChanges (effect e u) (releaseParts l)) :
    s.OnlyChanges (s.takeRead p cmd k effect) (releaseParts l) :=
  State.takeRead_keeps (P := fun u => s.OnlyChanges u (releaseParts l))
    (fun _ _ hf hu => hu.seq hf (by simp)) p cmd k effect (fun e u hu => hu.trans (h e u)) (.refl s _)

/-! ## Bodies -/

theorem voteBody_only (p : Port) (bytes : List Byte) : s.OnlyChanges (voteBody p bytes s).1 (releaseParts voteParts) := by
  unfold voteBody
  split
  · split
    · split
      · exact .refl s _
      · exact ((s.applyVotes_only _).mono (by decide)).seq (Upd.finish_only _) (by decide)
    · exact .refl s _
  · exact .refl s _

theorem resetPortBody_only (p : Port) (bytes : List Byte) :
    s.OnlyChanges (resetPortBody p bytes s).1 portResetParts := by
  cases bytes with
  | nil => exact .refl s _
  | cons b bytes =>
    simp only [resetPortBody]
    exact s.portReset_only p

/-! ## Resets -/

theorem State.deviceReset_only : s.OnlyChanges s.deviceReset (rowParts .deviceReset) :=
  ⟨rfl, fun k hk => by
    cases k
    case draws => rfl
    all_goals exact absurd (by decide) hk⟩

theorem State.deviceResetEnds_only : s.OnlyChanges { s with inReset := false } [.inReset] :=
  ⟨rfl, fun k hk => by
    cases k
    case inReset => exact absurd (by decide) hk
    all_goals rfl⟩

/-! ## Line events -/

theorem State.beginTurnIdle_only :
    s.OnlyChanges s.beginTurnIdle (.line :: .seq :: .rotation :: .draws :: boundaryParts) := by
  have hturn := s.advanceTurn_only.mono (m := .line :: .seq :: .rotation :: .draws :: boundaryParts) (by decide)
  have hdrawn := hturn.seq s.advanceTurn.drawn_only (by decide)
  unfold State.beginTurnIdle
  simp only []
  split
  · split
    · exact (hdrawn.seq (State.roundBoundary_only _) (by decide)).seq (State.ownTurnBegins_only _) (by decide)
    · exact (hdrawn.seq (State.ownTurnBegins_only _) (by decide)).seq (State.roundBoundary_only _) (by decide)
  · split
    · exact hturn.seq (State.roundBoundary_only _) (by decide)
    · split
      · exact hturn.seq (State.ownTurnBegins_only _) (by decide)
      · exact hturn

theorem State.turnAtActivity_only : s.OnlyChanges s.turnAtActivity (.line :: boundaryParts) := by
  unfold State.turnAtActivity State.beginTurnBusy
  split
  · exact s.startFirstTurn_only.mono (by decide)
  · split
    · split
      · exact s.advanceTurn_roundBoundary_only.mono (by decide)
      · exact s.advanceTurn_only.mono (by decide)
    · exact .refl s _

/-- What follows on the counting of a reception end may change. -/
theorem State.receptionCounted_end_only (rx : Reception) (v : Classified) :
    (s.receptionCounted v).OnlyChanges (s.receptionEnd rx v) (.line :: .seq :: passParts) := by
  have hdec := (s.receptionDecided_only rx v).mono (m := .line :: .seq :: passParts) (by decide)
  have hover := hdec.seq (s.receptionOver_only rx v) (by decide)
  exact hover.seq (Upd.finish_only (((s.receptionDecided rx v).andThen State.endReceptionSlot).on
    (fun s => s.afterReceptionEnd v rx))) (by decide)

/-! ## Rows -/

/-- The next state of an answer, if there is one, is as `P` says. -/
def AnswerAll (P : State → Prop) (a : Answer) : Prop := ∀ t, a = .next t → P t

theorem answerAll_next {P : State → Prop} {t : State} (h : P t) : AnswerAll P (.next t) := by
  rintro u ⟨⟩
  exact h

/-- The next state of an answer differs from `s` in these parts alone. -/
abbrev State.AnswersWith (l : List Part) (a : Answer) : Prop := AnswerAll (fun t => s.OnlyChanges t l) a

theorem State.answersWith_self (l : List Part) : s.AnswersWith l (.next s) := answerAll_next (.refl s l)

theorem execReadSnapshot_only (p : Port) (cmd : ReadCommand) (arg : Byte) :
    s.AnswersWith (releaseParts []) (execReadSnapshot p cmd arg s) := by
  unfold execReadSnapshot
  split
  · split
    · exact answerAll_next (s.takeSnapshot_only p _ cmd arg)
    · exact s.answersWith_self _
  · exact s.answersWith_self _

theorem execBadCommand_only (p : Port) (code : Byte) (bytes : List Byte) :
    s.AnswersWith (releaseParts []) (execBadCommand p code bytes s) := by
  unfold execBadCommand
  split
  · exact s.answersWith_self _
  · exact answerAll_next (s.takeCode_only p code _ (fun u => .refl u _))

theorem execPortReset_only (p : Port) : s.AnswersWith portResetParts (execPortReset p s) := by
  unfold execPortReset
  split
  · exact s.answersWith_self _
  · exact answerAll_next (((s.putEngine_only p _).mono (by decide)).trans (State.portReset_only _ p))

theorem execTurnBegins_only : s.AnswersWith (rowParts .turnBegins) (execTurnBegins s) := by
  unfold execTurnBegins
  split
  · refine answerAll_next ?_
    split
    · exact s.firstTurnBegins_only.mono (by decide)
    · exact s.beginTurnIdle_only
  · exact s.answersWith_self _

theorem execActivityBegins_only : s.AnswersWith (rowParts .activityBegins) (execActivityBegins s) := by
  unfold execActivityBegins
  split
  · exact answerAll_next (s.turnAtActivity_only.seq (State.beginReception_only _ []) (by decide))
  · exact s.answersWith_self _

theorem execTurnCheck_only (chars : List RxChar) : s.AnswersWith (.line :: boundaryParts) (execTurnCheck chars s) := by
  unfold execTurnCheck
  split
  · split
    · exact answerAll_next ((s.headerZero_only _ _).mono (by decide))
    · exact s.answersWith_self _
  · exact s.answersWith_self _

theorem execReceptionEnd_only (rest : List RxChar) :
    s.AnswersWith (.line :: .lineState :: .seq :: boundaryParts) (execReceptionEnd rest s) := by
  unfold execReceptionEnd
  split
  · simp only []
    split
    · exact answerAll_next (((s.receptionCounted_only _).mono (by decide)).seq
        (s.receptionCounted_end_only _ _) (by decide))
    · exact s.answersWith_self _
  · exact s.answersWith_self _

theorem execCollision_only (k : Nat) (c : RxChar) : s.AnswersWith endParts (execCollision k c s) := by
  unfold execCollision
  split
  · split
    · split
      · refine answerAll_next ?_
        split
        · exact (s.transmissionEnd_only _ _).seq (State.receiveAfterCollision_only _ _ k c) (by decide)
        · exact s.transmissionEnd_only _ _
      · exact s.answersWith_self _
    · exact s.answersWith_self _
  · exact s.answersWith_self _

theorem execCheckWordReadBack_only : s.AnswersWith endParts (execCheckWordReadBack s) := by
  unfold execCheckWordReadBack
  split
  · split
    · exact answerAll_next ((s.transmissionEnd_only _ _).seq (State.endLineTime_only _) (by decide))
    · exact answerAll_next ((s.putLine_only _).mono (by decide))
  · exact s.answersWith_self _

theorem execTransmissionEnd_only (reply : Option RxChar) : s.AnswersWith endParts (execTransmissionEnd reply s) := by
  unfold execTransmissionEnd
  split
  · exact answerAll_next ((s.transmissionEnd_only _ _).seq (State.endLineTime_only _) (by decide))
  · exact s.answersWith_self _

theorem execReplyByteStart_only : s.AnswersWith [.line] (execReplyByteStart s) := by
  unfold execReplyByteStart
  split
  · exact answerAll_next (s.putLine_only _)
  · exact s.answersWith_self _

theorem execReplyByteEnd_only : s.AnswersWith [.line] (execReplyByteEnd s) := by
  unfold execReplyByteEnd
  split
  · exact answerAll_next (s.putLine_only _)
  · exact s.answersWith_self _

theorem execLineTimeEnd_only : s.AnswersWith [.line] (execLineTimeEnd s) := by
  unfold execLineTimeEnd
  split
  · split
    · exact answerAll_next s.endLineTime_only
    · exact s.answersWith_self _
  · exact s.answersWith_self _

theorem execSyncEntryIdleSeen_only : s.AnswersWith [.line] (execSyncEntryIdleSeen s) := by
  unfold execSyncEntryIdleSeen
  split
  · exact answerAll_next (s.putLine_only _)
  · exact s.answersWith_self _

theorem execSyncIdleCount_only : s.AnswersWith (rowParts .syncIdleCount) (execSyncIdleCount s) := by
  have hsync := s.syncByIdle_only.mono (m := rowParts .syncIdleCount) (by decide)
  unfold execSyncIdleCount
  split
  · refine answerAll_next ?_
    split
    · exact hsync
    · exact hsync.seq (State.firstTurnBegins_only _) (by decide)
  · exact s.answersWith_self _

/-- The release of a command whose body changes the parts `m`. -/
theorem takeCommand_only (p : Port) (c : Command) (body : State → State × Result) {m : List Part}
    (h : ∀ u : State, u.OnlyChanges (body u).1 m) (hm : ∀ k ∈ m, k ∈ releaseParts l) :
    s.AnswersWith (releaseParts l) (.next (s.takeCommand p c body)) :=
  answerAll_next (s.takeCode_only p c.code body (fun u => (h u).mono hm))

/-- The release of a read command whose effect changes the parts `m`. -/
theorem takeRead_only (p : Port) (cmd : ReadCommand) (k : Nat) (effect : SideEffect → State → State) {m : List Part}
    (h : ∀ e (u : State), u.OnlyChanges (effect e u) m) (hm : ∀ k ∈ m, k ∈ releaseParts l) :
    s.AnswersWith (releaseParts l) (.next (s.takeRead p cmd k effect)) :=
  answerAll_next (s.takeRead_only p cmd k effect (fun e u => (h e u).mono hm))

/-- Every row changes its parts of the state alone. -/
theorem exec_only (c : Instr) : s.AnswersWith (rowParts c) (exec c s) := by
  cases c with
  | deviceReset => exact answerAll_next s.deviceReset_only
  | deviceResetEnds => exact answerAll_next s.deviceResetEnds_only
  | portReset p => exact execPortReset_only s p
  | prstRelease p => exact answerAll_next (s.putEngine_only p _)
  | transactionBegin p => exact answerAll_next (s.beginTransaction_only p)
  | readSnapshot p cmd arg => exact execReadSnapshot_only s p cmd arg
  | transactionWithoutCommand p => exact answerAll_next (s.atRelease_only p _ _ (fun _ u => .refl u _))
  | badCommand p code bytes => exact execBadCommand_only s p code bytes
  | vote p bytes => exact takeCommand_only s p .vote _ (voteBody_only · p bytes) (by decide)
  | resetPort p bytes => exact takeCommand_only s p .resetPort _ (resetPortBody_only · p bytes) (by decide)
  | nop p bytes =>
    exact takeCommand_only s p .nop _ (fun u => by rw [nopBody_state]; exact .refl u []) (by decide)
  | configure p bytes => exact takeCommand_only s p .configure _ (configureBody_only · bytes) (by decide)
  | resume p bytes => exact takeCommand_only s p .resume _ (resumeBody_only · bytes) (by decide)
  | load p bytes => exact takeCommand_only s p .load _ (loadBody_only · p bytes) (by decide)
  | request p bytes => exact takeCommand_only s p .request _ (requestBody_only · p bytes) (by decide)
  | abort p bytes => exact takeCommand_only s p .abort _ (abortBody_only · p bytes) (by decide)
  | clear p bytes => exact takeCommand_only s p .clear _ (clearBody_only · p bytes) (by decide)
  | claim p bytes => exact takeCommand_only s p .claim _ (claimBody_only · p bytes) (by decide)
  | releaseChannel p bytes =>
    exact takeCommand_only s p .releaseChannel _ (fun u => ownerCommand_only u p bytes _ _ u.releaseChannel_only)
      (by decide)
  | halt p bytes =>
    exact takeCommand_only s p .halt _ (fun u => ownerCommand_only u p bytes _ _ (u.setChannelState_only _)) (by decide)
  | openChannel p bytes =>
    exact takeCommand_only s p .openChannel _ (fun u => ownerCommand_only u p bytes _ _ (u.setChannelState_only _))
      (by decide)
  | setEntry p bytes => exact takeCommand_only s p .setEntry _ (setEntryBody_only · p bytes) (by decide)
  | freeEntry p bytes => exact takeCommand_only s p .freeEntry _ (freeEntryBody_only · p bytes) (by decide)
  | setQueue p bytes => exact takeCommand_only s p .setQueue _ (setQueueBody_only · p bytes) (by decide)
  | release p bytes => exact takeCommand_only s p .release _ (releaseBody_only · p bytes) (by decide)
  | setPort p bytes => exact takeCommand_only s p .setPort _ (setPortBody_only · p bytes) (by decide)
  | acknowledge p bytes => exact takeCommand_only s p .acknowledge _ (acknowledgeBody_only · p bytes) (by decide)
  | readLine p k => exact takeRead_only s p .line k _ (fun e u => reduceCounters_only u e) (by decide)
  | readCompletion p k => exact takeRead_only s p .completion k _ (fun e u => dropReported_only u p e) (by decide)
  | peek p k => exact takeRead_only s p .peek k _ (fun e u => pinHead_only u p e) (by decide)
  | take p k => exact takeRead_only s p .take k _ (fun e u => takeHead_only u p e) (by decide)
  | readMailbox p k => exact takeRead_only s p .mailbox k _ (fun _ u => .refl u []) (by decide)
  | readChannel p k => exact takeRead_only s p .channel k _ (fun _ u => .refl u []) (by decide)
  | readEntry p k => exact takeRead_only s p .entry k _ (fun _ u => .refl u []) (by decide)
  | readQueue p k => exact takeRead_only s p .queue k _ (fun _ u => .refl u []) (by decide)
  | turnBegins => exact execTurnBegins_only s
  | activityBegins => exact execActivityBegins_only s
  | turnCheck chars => exact execTurnCheck_only s chars
  | receptionEnd rest => exact execReceptionEnd_only s rest
  | collision k c => exact execCollision_only s k c
  | checkWordReadBack => exact execCheckWordReadBack_only s
  | transmissionEnd reply => exact execTransmissionEnd_only s reply
  | replyByteStart => exact execReplyByteStart_only s
  | replyByteEnd => exact execReplyByteEnd_only s
  | lineTimeEnd => exact execLineTimeEnd_only s
  | syncIdleCount => exact execSyncIdleCount_only s
  | syncEntryIdleSeen => exact execSyncEntryIdleSeen_only s

end Sys2Proof.Machine
end

section
/-! O57: window, confinement state and clean-round count agree after every step. What a step can do to the fault
confinement unit is said once, as a chain of moves (R38 to R50); each move keeps the three in agreement. -/

namespace Sys2Proof.Machine

/-! ## The moves of the fault confinement unit -/

/-- What the fault confinement unit does at one of its events. -/
inductive Confinement.Move (f : Confinement) : Confinement → Prop
  /-- R39, R40: it takes a raw result. -/
  | append (raw : RawResult) : f.Move (f.appended raw)
  /-- R44: the spoiled-round marker is set, or cleared at a round boundary. -/
  | mark (b : Bool) : f.Move { f with spoiled := b }
  /-- R45: a round boundary in SILENCED at which the silence goes on. -/
  | count (n : Nat) (hs : f.state = .silenced) (hn : n < 4) :
      f.Move { f with cleanRounds := n, spoiled := false }
  /-- R46: the fourth clean round under the recovery policy MANUAL. -/
  | ready (n : Nat) (hs : f.state = .silenced) (hc : 4 ≤ n) (hn : n ≤ f.cleanRounds + 1) :
      f.Move { f with state := .readyToResume, cleanRounds := n, spoiled := false }
  /-- R46, R48: the silence ends, by the recovery policy AUTO or by RESUME. -/
  | engage (b : Bool) (hs : f.state = .silenced ∨ f.state = .readyToResume) :
      f.Move { window := [], state := .engaged, cleanRounds := 0, spoiled := b }
  /-- R49: entry to OFFLINE. -/
  | offline : f.Move { f with cleanRounds := 0 }
  /-- R50: device reset. -/
  | reset : f.Move State.reset.fault

/-- The fault confinement unit gets from `s` to `t` by its moves. -/
def State.FaultMoves (s t : State) : Prop := Relation.ReflTransGen Confinement.Move s.fault t.fault

theorem State.FaultMoves.of_eq {s t : State} (h : t.fault = s.fault) : s.FaultMoves t := by
  unfold State.FaultMoves
  rw [h]

theorem State.FaultMoves.of_only {s t : State} {l : List Part} (h : s.OnlyChanges t l) (hl : Part.fault ∉ l) :
    s.FaultMoves t := .of_eq (h.2 .fault hl)

theorem State.FaultMoves.of_move {s t : State} {f : Confinement} (h : s.fault.Move f) (hf : t.fault = f) :
    s.FaultMoves t := by
  unfold State.FaultMoves
  rw [hf]
  exact .single h

theorem State.FaultMoves.refl (s : State) : s.FaultMoves s := .of_eq rfl

theorem State.FaultMoves.trans {s t u : State} (h : s.FaultMoves t) (g : t.FaultMoves u) : s.FaultMoves u :=
  Relation.ReflTransGen.trans h g

/-- An action that leaves the fault confinement unit adds no move. -/
theorem State.FaultMoves.seq {s t u : State} {l : List Part} (h : s.FaultMoves t) (g : t.OnlyChanges u l)
    (hl : Part.fault ∉ l) : s.FaultMoves u := h.trans (.of_only g hl)

/-! ## What the moves keep -/

/-- R38, R40, R45: window, state and clean-round count of a fault confinement unit agree. -/
structure Confinement.Sound (f : Confinement) : Prop where
  length : f.window.length ≤ windowSize
  engaged : f.state = .engaged → failures f.window ≤ 3 ∧ f.cleanRounds = 0
  guarded : f.state = .guarded → 4 ≤ failures f.window ∧ failures f.window ≤ 9 ∧ f.cleanRounds = 0
  silenced : f.state = .silenced → f.cleanRounds ≤ 3
  count : f.cleanRounds ≤ 4

theorem State.confinementSound_iff (s : State) : s.ConfinementSound ↔ s.fault.Sound :=
  ⟨fun ⟨h1, h2, h3, h4, h5⟩ => ⟨h1, h2, h3, h4, h5⟩, fun ⟨h1, h2, h3, h4, h5⟩ => ⟨h1, h2, h3, h4, h5⟩⟩

/-- R38: a window of at most 16 outcomes stays one. -/
theorem appendOutcome_length {w : List Health} (x : Health) (h : w.length ≤ windowSize) :
    (appendOutcome w x).length ≤ windowSize := by
  unfold appendOutcome windowSize at *
  split <;> simp only [List.length_append, List.length_tail, List.length_singleton] <;> omega

/-- R38: an append adds one failure at the most. -/
theorem failures_appendOutcome (w : List Health) (x : Health) : failures (appendOutcome w x) ≤ failures w + 1 := by
  have htail : w.tail.count .fail ≤ w.count .fail := w.tail_sublist.count_le _
  have hone : [x].count .fail ≤ 1 := List.count_le_length
  unfold failures appendOutcome
  split <;> rw [List.count_append] <;> omega

/-- R40: what leads to ENGAGED. -/
theorem nextConfinement_engaged {st : ConfinementState} {n : Nat} (h : nextConfinement st n = .engaged) :
    (st = .engaged ∨ st = .guarded) ∧ n ≤ 3 := by
  cases st with
  | engaged =>
    simp only [nextConfinement] at h
    split_ifs at h with h4
    exact ⟨.inl rfl, Nat.le_of_lt_succ (Nat.lt_of_not_le h4)⟩
  | guarded =>
    simp only [nextConfinement] at h
    split_ifs at h with h10 h3
    exact ⟨.inr rfl, h3⟩
  | silenced => cases h
  | readyToResume => cases h

/-- R40: what leads to GUARDED. -/
theorem nextConfinement_guarded {st : ConfinementState} {n : Nat} (h : nextConfinement st n = .guarded) :
    4 ≤ n ∧ (st = .engaged ∨ st = .guarded ∧ n ≤ 9) := by
  cases st with
  | engaged =>
    simp only [nextConfinement] at h
    split_ifs at h with h4
    exact ⟨h4, .inl rfl⟩
  | guarded =>
    simp only [nextConfinement] at h
    split_ifs at h with h10 h3
    exact ⟨Nat.lt_of_not_le h3, .inr ⟨rfl, Nat.le_of_lt_succ (Nat.lt_of_not_le h10)⟩⟩
  | silenced => cases h
  | readyToResume => cases h

theorem Confinement.appended_window_state (f : Confinement) (raw : RawResult) :
    (f.appended raw).window = appendOutcome f.window raw.health
      ∧ (f.appended raw).state = nextConfinement f.state (failures (appendOutcome f.window raw.health)) := by
  unfold Confinement.appended
  simp only []
  split <;> exact ⟨rfl, rfl⟩

theorem Confinement.appended_cleanRounds_le (f : Confinement) (raw : RawResult) :
    (f.appended raw).cleanRounds ≤ f.cleanRounds := by
  unfold Confinement.appended
  simp only []
  split
  · exact Nat.zero_le _
  · exact Nat.le_refl _

variable {f g : Confinement}

/-- Outside silence the clean-round count is 0. -/
theorem Confinement.Sound.cleanRounds_zero (h : f.Sound) (hs : f.state = .engaged ∨ f.state = .guarded) :
    f.cleanRounds = 0 := by
  rcases hs with hs | hs
  · exact (h.engaged hs).2
  · exact (h.guarded hs).2.2

/-- R40: an append adds a failure at the most, so GUARDED is entered at 4 failures, and SILENCED at 10. -/
theorem Confinement.Sound.appended (h : f.Sound) (raw : RawResult) : (f.appended raw).Sound := by
  obtain ⟨hw, hst⟩ := f.appended_window_state raw
  have hle := f.appended_cleanRounds_le raw
  have hfail := failures_appendOutcome f.window raw.health
  refine ⟨by rw [hw]; exact appendOutcome_length _ h.length, fun he => ?_, fun hg => ?_, fun hs => ?_,
    hle.trans h.count⟩
  · obtain ⟨hf, hn⟩ := nextConfinement_engaged (hst.symm.trans he)
    rw [h.cleanRounds_zero hf] at hle
    exact ⟨by rw [hw]; exact hn, Nat.le_zero.1 hle⟩
  · obtain ⟨hn, hf⟩ := nextConfinement_guarded (hst.symm.trans hg)
    rw [h.cleanRounds_zero (hf.imp_right And.left)] at hle
    have hlt : failures (appendOutcome f.window raw.health) ≤ 9 := by
      rcases hf with hf | ⟨-, hf⟩
      · have := (h.engaged hf).1
        omega
      · exact hf
    exact ⟨by rw [hw]; exact hn, by rw [hw]; exact hlt, Nat.le_zero.1 hle⟩
  · by_cases hf : f.state = .silenced
    · exact hle.trans (h.silenced hf)
    · rw [(Confinement.appended_enters hs hf).2]
      exact Nat.zero_le 3

/-- Each move keeps the agreement. -/
theorem Confinement.Move.sound (hm : f.Move g) (h : f.Sound) : g.Sound := by
  cases hm with
  | append raw => exact h.appended raw
  | mark b => exact ⟨h.length, h.engaged, h.guarded, h.silenced, h.count⟩
  | count n hs hn =>
    exact ⟨h.length, fun e => absurd (hs.symm.trans e) nofun, fun e => absurd (hs.symm.trans e) nofun,
      fun _ => Nat.le_of_lt_succ hn, Nat.le_of_lt hn⟩
  | ready n hs _ hn =>
    exact ⟨h.length, nofun, nofun, nofun, hn.trans (Nat.succ_le_succ (h.silenced hs))⟩
  | engage b hs => exact ⟨Nat.zero_le _, fun _ => ⟨Nat.zero_le _, rfl⟩, nofun, nofun, Nat.zero_le _⟩
  | offline =>
    exact ⟨h.length, fun e => ⟨(h.engaged e).1, rfl⟩, fun e => ⟨(h.guarded e).1, (h.guarded e).2.1, rfl⟩,
      fun _ => Nat.zero_le _, Nat.zero_le _⟩
  | reset => exact ⟨Nat.zero_le _, fun _ => ⟨Nat.zero_le _, rfl⟩, nofun, nofun, Nat.zero_le _⟩

/-- A chain of moves keeps the agreement. -/
theorem State.FaultMoves.confinementSound {s t : State} (hm : s.FaultMoves t) (h : s.ConfinementSound) :
    t.ConfinementSound := by
  rw [State.confinementSound_iff] at h ⊢
  unfold State.FaultMoves at hm
  generalize t.fault = g at hm
  induction hm with
  | refl => exact h
  | tail _ hlast ih => exact hlast.sound ih

end Sys2Proof.Machine
end

section
/-! O57, by event: which moves of the fault confinement unit each event and each row that reaches it brings. -/

namespace Sys2Proof.Machine

variable (s : State)

/-! ## Events -/

theorem State.appendHealth_faultMoves (raw : RawResult) : s.FaultMoves (s.appendHealth raw) :=
  .of_move (.append raw) (s.appendHealth_fault_eq raw)

/-- R45: outside SILENCED no round counts, and a round counts once. -/
theorem State.countRound_le : s.countRound ≤ s.fault.cleanRounds + 1 := by
  unfold State.countRound
  split
  · split
    · exact Nat.zero_le _
    · exact Nat.le_refl _
  · exact Nat.le_succ _

theorem State.countRound_of_not_silenced (h : s.fault.state ≠ .silenced) : s.countRound = s.fault.cleanRounds := by
  simp [State.countRound, h]

theorem State.confinementRoundBoundary_faultMoves : s.FaultMoves s.confinementRoundBoundary := by
  unfold State.confinementRoundBoundary
  simp only [Bool.and_eq_true, beq_iff_eq, decide_eq_true_eq]
  split
  next h =>
    split
    · exact .of_move (.engage false (.inl h.1)) (State.confine_fault _ _)
    · exact .of_move (.ready s.countRound h.1 h.2 s.countRound_le) (State.confine_fault _ _)
  next h =>
    by_cases hs : s.fault.state = .silenced
    · exact .of_move (.count s.countRound hs (Nat.lt_of_not_le fun hn => h ⟨hs, hn⟩)) rfl
    · exact .of_move (.mark false) (by rw [State.putFault_fault, s.countRound_of_not_silenced hs])

theorem State.roundBoundary_faultMoves : s.FaultMoves s.roundBoundary := by
  obtain ⟨u, hu, e⟩ := s.roundBoundary_cases
  have hbank : s.FaultMoves s.bankRoundBoundary := .of_only s.bankRoundBoundary_only (by decide)
  rw [e]
  rcases hu with rfl | rfl
  · exact hbank.trans (State.confinementRoundBoundary_faultMoves _)
  · exact (hbank.seq (State.localPass_only _ false) (by decide)).trans (State.confinementRoundBoundary_faultMoves _)

theorem State.beginTurnIdle_faultMoves : s.FaultMoves s.beginTurnIdle := by
  have hturn : s.FaultMoves s.advanceTurn := .of_only s.advanceTurn_only (by decide)
  have hdrawn := hturn.seq (State.drawn_only _) (by decide)
  unfold State.beginTurnIdle
  simp only []
  split
  · split
    · exact (hdrawn.trans (State.roundBoundary_faultMoves _)).seq (State.ownTurnBegins_only _) (by decide)
    · exact (hdrawn.seq (State.ownTurnBegins_only _) (by decide)).trans (State.roundBoundary_faultMoves _)
  · split
    · exact hturn.trans (State.roundBoundary_faultMoves _)
    · split
      · exact hturn.seq (State.ownTurnBegins_only _) (by decide)
      · exact hturn

theorem State.turnAtActivity_faultMoves : s.FaultMoves s.turnAtActivity := by
  have hturn : s.FaultMoves s.advanceTurn := .of_only s.advanceTurn_only (by decide)
  unfold State.turnAtActivity State.beginTurnBusy
  split
  · exact .of_only s.startFirstTurn_only (by decide)
  · split
    · split
      · exact hturn.trans (State.roundBoundary_faultMoves _)
      · exact hturn
    · exact .refl s

theorem State.slip_faultMoves (a : NodeAddr) : s.FaultMoves (s.slip a) := by
  have hseen : s.FaultMoves s.slipSeen := .of_move (.mark true) rfl
  rcases s.slip_cases a with ⟨-, -, e⟩ | ⟨-, e⟩
  · rw [e]
    exact ((hseen.seq (State.putLine_only _ _) (by decide)).trans (State.roundBoundary_faultMoves _)).seq
      (State.putLine_only _ _) (by decide)
  · rw [e]
    exact hseen.seq (State.putLine_only _ _) (by decide)

theorem State.headerZero_faultMoves (pre h0 : RxChar) : s.FaultMoves (s.headerZero pre h0) := by
  unfold State.headerZero
  simp only []
  split
  · exact .of_only (s.follow_only _ _) (by decide)
  · split
    · exact (s.slip_faultMoves _).seq (State.follow_only _ _ _) (by decide)
    · split
      · exact (s.slip_faultMoves _).seq (State.frameStart_only _ _) (by decide)
      · exact .of_only (s.frameStart_only _) (by decide)

theorem State.receptionEnd_faultMoves (rx : Reception) (v : Classified) : s.FaultMoves (s.receptionEnd rx v) := by
  have hcount : s.FaultMoves (s.receptionCounted v) := by
    have hf := s.receptionCounted_fault v
    split at hf
    · exact .of_eq hf
    · exact .of_move (.mark true) hf
  exact hcount.seq (s.receptionCounted_end_only rx v) (by decide)

theorem State.transmissionEnd_faultMoves (f : OwnFrame) (raw : RawResult) :
    s.FaultMoves (s.transmissionEnd f raw) := by
  have happend := s.appendHealth_faultMoves raw
  by_cases h : s.member.lineState = .leaving
  · exact happend.trans (.of_move .offline (s.transmissionEnd_fault_leave f raw h))
  · exact happend.trans (.of_eq (s.transmissionEnd_fault_stay f raw h))

theorem State.receiveAfterCollision_faultMoves (f : OwnFrame) (k : Nat) (c : RxChar) :
    s.FaultMoves (s.receiveAfterCollision f k c) := by
  obtain ⟨u, hu, ho, -⟩ := s.receiveAfterCollision_slip f k c
  have hreceive : s.FaultMoves (s.receivedOn (collisionChars f k c)) := .of_only (s.receivedOn_only _) (by decide)
  refine State.FaultMoves.seq ?_ ho (by decide)
  rcases hu with rfl | ⟨a, rfl⟩
  · exact hreceive
  · exact hreceive.trans (State.slip_faultMoves _ a)

/-- R30, R49: of the moves of the line state, entry to OFFLINE reaches the fault confinement unit. -/
theorem State.moveLineState_faultMoves (l : LineState) : s.FaultMoves (s.moveLineState l).state := by
  by_cases hsame : l = s.member.lineState
  · exact .of_eq (by simp [State.moveLineState, hsame])
  · have hb : (l == s.member.lineState) = false := by simpa using hsame
    simp only [State.moveLineState, hb, Bool.false_eq_true, if_false]
    cases l with
    | offline => exact .of_move .offline s.wentOffline_fault
    | syncing => exact .of_eq rfl
    | leaving =>
      have hput : s.FaultMoves (s.putLineState .leaving) := .of_eq rfl
      exact hput.seq (State.abandonReception_only _) (by decide)
    | active => exact .of_eq rfl

theorem State.applyVotes_faultMoves (v : Vector Vote 3) : s.FaultMoves (s.applyVotes v).state :=
  (State.moveLineState_faultMoves (s.putVotes v) _).seq (State.announceLine_only _ s) (by decide)

theorem State.portReset_faultMoves (p : Port) : s.FaultMoves (s.portReset p) := by
  have hcleared : s.FaultMoves (s.portCleared p).state := .of_only (s.portCleared_only p) (by decide)
  rw [State.portReset_eq, (Upd.andThen_parts _ _).1]
  exact (hcleared.trans (State.applyVotes_faultMoves _ _)).seq (State.localPass_only _ true) (by decide)

theorem State.syncByIdle_faultMoves : s.FaultMoves s.syncByIdle :=
  .of_move (.mark true) (State.syncEstablished_fault _)

/-! ## Rows -/

/-- The fault confinement unit gets to the next state of an answer, if there is one, by its moves. -/
abbrev State.AnswersByMoves (a : Answer) : Prop := AnswerAll s.FaultMoves a

theorem State.answersByMoves_self : s.AnswersByMoves (.next s) := answerAll_next (.refl s)

theorem execTurnBegins_faultMoves : s.AnswersByMoves (execTurnBegins s) := by
  unfold execTurnBegins
  split
  · refine answerAll_next ?_
    split
    · exact .of_only s.firstTurnBegins_only (by decide)
    · exact s.beginTurnIdle_faultMoves
  · exact s.answersByMoves_self

theorem execActivityBegins_faultMoves : s.AnswersByMoves (execActivityBegins s) := by
  unfold execActivityBegins
  split
  · exact answerAll_next (s.turnAtActivity_faultMoves.seq (State.beginReception_only _ []) (by decide))
  · exact s.answersByMoves_self

theorem execTurnCheck_faultMoves (chars : List RxChar) : s.AnswersByMoves (execTurnCheck chars s) := by
  unfold execTurnCheck
  split
  · split
    · exact answerAll_next (s.headerZero_faultMoves _ _)
    · exact s.answersByMoves_self
  · exact s.answersByMoves_self

theorem execReceptionEnd_faultMoves (rest : List RxChar) : s.AnswersByMoves (execReceptionEnd rest s) := by
  unfold execReceptionEnd
  split
  · simp only []
    split
    · exact answerAll_next (s.receptionEnd_faultMoves _ _)
    · exact s.answersByMoves_self
  · exact s.answersByMoves_self

theorem execCollision_faultMoves (k : Nat) (c : RxChar) : s.AnswersByMoves (execCollision k c s) := by
  unfold execCollision
  split
  · split
    · split
      · refine answerAll_next ?_
        split
        · exact (s.transmissionEnd_faultMoves _ _).trans (State.receiveAfterCollision_faultMoves _ _ k c)
        · exact s.transmissionEnd_faultMoves _ _
      · exact s.answersByMoves_self
    · exact s.answersByMoves_self
  · exact s.answersByMoves_self

theorem execCheckWordReadBack_faultMoves : s.AnswersByMoves (execCheckWordReadBack s) := by
  unfold execCheckWordReadBack
  split
  · split
    · exact answerAll_next ((s.transmissionEnd_faultMoves _ _).seq (State.endLineTime_only _) (by decide))
    · exact answerAll_next (.of_only (s.putLine_only _) (by decide))
  · exact s.answersByMoves_self

theorem execTransmissionEnd_faultMoves (reply : Option RxChar) : s.AnswersByMoves (execTransmissionEnd reply s) := by
  unfold execTransmissionEnd
  split
  · exact answerAll_next ((s.transmissionEnd_faultMoves _ _).seq (State.endLineTime_only _) (by decide))
  · exact s.answersByMoves_self

theorem execSyncIdleCount_faultMoves : s.AnswersByMoves (execSyncIdleCount s) := by
  unfold execSyncIdleCount
  split
  · refine answerAll_next ?_
    split
    · exact s.syncByIdle_faultMoves
    · exact s.syncByIdle_faultMoves.seq (State.firstTurnBegins_only _) (by decide)
  · exact s.answersByMoves_self

theorem execPortReset_faultMoves (p : Port) : s.AnswersByMoves (execPortReset p s) := by
  unfold execPortReset
  split
  · exact s.answersByMoves_self
  · have hpin : s.FaultMoves (s.setPrst p true) := .of_only (s.putEngine_only p _) (by decide)
    exact answerAll_next (hpin.trans (State.portReset_faultMoves _ p))

/-- The release of a command whose body brings moves. -/
theorem takeCommand_faultMoves (p : Port) (c : Command) (body : State → State × Result)
    (hb : ∀ u : State, u.FaultMoves (body u).1) : s.AnswersByMoves (.next (s.takeCommand p c body)) :=
  answerAll_next (State.takeCode_keeps (P := s.FaultMoves) (fun _ _ hf hu => hu.seq hf (by decide)) p c.code body
    (fun u hu => hu.trans (hb u)) (.refl s))

theorem voteBody_faultMoves (p : Port) (bytes : List Byte) : s.FaultMoves (voteBody p bytes s).1 := by
  unfold voteBody
  split
  · split
    · split
      · exact .refl s
      · exact (s.applyVotes_faultMoves _).seq (Upd.finish_only _) (by decide)
    · exact .refl s
  · exact .refl s

theorem resetPortBody_faultMoves (p : Port) (bytes : List Byte) : s.FaultMoves (resetPortBody p bytes s).1 := by
  cases bytes with
  | nil => exact .refl s
  | cons b bytes =>
    simp only [resetPortBody]
    exact s.portReset_faultMoves p

theorem resumeBody_faultMoves (bytes : List Byte) : s.FaultMoves (resumeBody bytes s).1 := by
  cases bytes with
  | nil => exact .refl s
  | cons b rest =>
    cases h : s.fault.state with
    | readyToResume =>
      rw [resumeBody_ready b rest h]
      exact .of_move (.engage s.fault.spoiled (.inr h)) (State.confine_fault _ _)
    | silenced => rw [resumeBody_silenced b rest h]; exact .refl s
    | engaged => rw [resumeBody_talking b rest (.inl h)]; exact .refl s
    | guarded => rw [resumeBody_talking b rest (.inr h)]; exact .refl s

/-- R38 to R50: a row moves the fault confinement unit by its moves alone. -/
theorem exec_faultMoves (c : Instr) : s.AnswersByMoves (exec c s) := by
  by_cases hfault : Part.fault ∈ rowParts c
  · cases c
    case deviceReset => exact answerAll_next (.of_move .reset rfl)
    case portReset p => exact execPortReset_faultMoves s p
    case vote p bytes => exact takeCommand_faultMoves s p .vote _ (voteBody_faultMoves · p bytes)
    case resume p bytes => exact takeCommand_faultMoves s p .resume _ (resumeBody_faultMoves · bytes)
    case resetPort p bytes => exact takeCommand_faultMoves s p .resetPort _ (resetPortBody_faultMoves · p bytes)
    case turnBegins => exact execTurnBegins_faultMoves s
    case activityBegins => exact execActivityBegins_faultMoves s
    case turnCheck chars => exact execTurnCheck_faultMoves s chars
    case receptionEnd rest => exact execReceptionEnd_faultMoves s rest
    case collision k c => exact execCollision_faultMoves s k c
    case checkWordReadBack => exact execCheckWordReadBack_faultMoves s
    case transmissionEnd reply => exact execTransmissionEnd_faultMoves s reply
    case syncIdleCount => exact execSyncIdleCount_faultMoves s
    all_goals simp [rowParts] at hfault
  · exact fun t ht => .of_only (exec_only s c t ht) hfault

/-- Settles O57: a step is the row of the front command, or idles, and the moves of a row keep the agreement. -/
theorem stepKeepsConfinementSound : Obligations.StepKeepsConfinementSound := by
  intro s t hs hstep
  unfold step at hstep
  split at hstep
  · cases hstep
    exact hs
  next c rest _ =>
    have h : State.ConfinementSound { s with pending := rest } := hs
    exact (exec_faultMoves _ c t hstep).confinementSound h

end Sys2Proof.Machine
end

section
/-! The invariant of the mailbox bank (O59), with the reference of the frame that is on the line as a parameter: what each
write of a mailbox and of the pending list keeps of it (R52 to R54, R66, R75, R76). -/

namespace Sys2Proof.Machine

/-! ## The invariant -/

/-- R54, R75, R76: mailboxes and pending list agree with one another and with the reference `o` whose frame is on the line. -/
structure State.ListsSafe (s : State) (o : Option Ref) : Prop where
  nodup : s.sched.refs.Nodup
  listed : ∀ r : Ref, r ∈ s.sched.refs ↔ (s.mailbox r).state.onPendingList = true
  onLine : ∀ r : Ref, (s.mailbox r).state.onLine = true ↔ o = some r
  sound : ∀ r : Ref, (s.mailbox r).Sound
  order : s.OrderSound

/-- R54, R66, R75, R76: so do the completion lists. -/
def State.BankSafe (s : State) (o : Option Ref) : Prop := s.ListsSafe o ∧ s.CompletionsSound

/-- The reference of the own frame in flight. -/
def State.ownRef (s : State) : Option Ref := s.line.own.map (·.ref)

theorem State.bankSafe_iff (s : State) : s.BankSafe s.ownRef ↔ s.BankSound ∧ s.OrderSound := by
  constructor
  · rintro ⟨⟨hn, hl, ho, hs, hord⟩, hc⟩
    exact ⟨⟨⟨hn, fun _ _ => hl _⟩, fun _ _ => ho _, hc, fun _ _ => hs _⟩, hord⟩
  · rintro ⟨⟨⟨hn, hl⟩, ho, hc, hs⟩, hord⟩
    exact ⟨⟨hn, fun r => hl r.port r.index, fun r => ho r.port r.index, fun r => hs r.port r.index, hord⟩, hc⟩

variable {s t : State} {r : Ref} {o o' : Option Ref}

/-! ## What decides whether a mailbox is blocked -/

theorem State.destination_congr (h : t.mailbox r = s.mailbox r) : t.destination r = s.destination r := by
  simp only [State.destination, h]

theorem State.isLocal_congr (h : (t.mailbox r).record = (s.mailbox r).record) : t.isLocal r = s.isLocal r := by
  simp only [State.isLocal, State.kind, h]

/-- R76: `r` is blocked exactly if an earlier reference has its destination. -/
theorem State.blocked_iff (s : State) (r : Ref) :
    s.blocked r = true ↔ ∃ e ∈ s.earlier r, s.destination e = s.destination r := by
  simp [State.blocked]

theorem State.blocked_congr (he : t.earlier r = s.earlier r) (hr : t.destination r = s.destination r)
    (hd : ∀ e ∈ s.earlier r, t.destination e = s.destination e) : t.blocked r = s.blocked r := by
  rw [Bool.eq_iff_iff, State.blocked_iff, State.blocked_iff, he, hr]
  exact exists_congr fun e => and_congr_right fun h => by rw [hd e h]

/-- The references earlier than `r` are on the pending list, and are not `r`. -/
theorem State.mem_earlier {e : Ref} (h : e ∈ s.earlier r) : e ∈ s.sched.refs ∧ e ≠ r :=
  ⟨List.takeWhile_subset _ h, by simpa using List.mem_takeWhile_imp h⟩

/-- R76: a reference that leaves the pending list, or stands behind `r`, does not block `r` anew. -/
theorem State.blocked_mono (hr : t.destination r = s.destination r) (he : ∀ e ∈ t.earlier r, e ∈ s.earlier r)
    (hd : ∀ e ∈ t.earlier r, t.destination e = s.destination e) (h : s.blocked r = false) : t.blocked r = false := by
  rw [← Bool.not_eq_true, State.blocked_iff] at h ⊢
  rintro ⟨e, hm, hq⟩
  exact h ⟨e, he e hm, by rw [← hd e hm, hq, hr]⟩

/-- R75: the references earlier than `q` close up when `r` leaves. -/
theorem takeWhile_filter_ne {q r : Ref} (h : q ≠ r) (l : List Ref) :
    (l.filter (· != r)).takeWhile (· != q) = (l.takeWhile (· != q)).filter (· != r) := by
  induction l with
  | nil => rfl
  | cons a l ih =>
    by_cases hr : a = r
    · subst hr
      simp [ih, Ne.symm h]
    · by_cases hq : a = q
      · subst hq
        simp [h]
      · simp [hr, hq, ih]

/-- The references earlier than one on the list do not depend on what is appended. -/
theorem takeWhile_append_of_mem {q : Ref} {l : List Ref} (h : q ∈ l) (m : List Ref) :
    (l ++ m).takeWhile (· != q) = l.takeWhile (· != q) := by
  induction l with
  | nil => cases h
  | cons a l ih =>
    by_cases hq : a = q
    · subst hq
      simp
    · simp [hq, ih ((List.mem_cons.1 h).resolve_left (Ne.symm hq))]

/-! ## One mailbox is written -/

/-- Of the mailboxes `r` alone is written, to `m`. -/
def State.Writes (s t : State) (r : Ref) (m : Mailbox) : Prop := ∀ q, t.mailbox q = if q = r then m else s.mailbox q

theorem State.Writes.self {m : Mailbox} (h : s.Writes t r m) : t.mailbox r = m := by rw [h r, if_pos rfl]

theorem State.Writes.other {m : Mailbox} (h : s.Writes t r m) {q : Ref} (hq : q ≠ r) : t.mailbox q = s.mailbox q := by
  rw [h q, if_neg hq]

/-- The frame on the line is `r`'s in `o'` exactly if `sends`, and any other's as in `o`. -/
def OnLineMoves (o o' : Option Ref) (r : Ref) (sends : Bool) : Prop :=
  (sends = true ↔ o' = some r) ∧ ∀ q, q ≠ r → (o' = some q ↔ o = some q)

theorem State.ListsSafe.onLine_write (h : s.ListsSafe o) {m : Mailbox} (hw : s.Writes t r m)
    (ho : OnLineMoves o o' r m.state.onLine) (q : Ref) : (t.mailbox q).state.onLine = true ↔ o' = some q := by
  by_cases hq : q = r
  · rw [hq, hw.self]
    exact ho.1
  · rw [hw.other hq, h.onLine q, ho.2 q hq]

theorem State.ListsSafe.sound_write (h : s.ListsSafe o) {m : Mailbox} (hw : s.Writes t r m) (hm : m.Sound) (q : Ref) :
    (t.mailbox q).Sound := by
  by_cases hq : q = r
  · rw [hq, hw.self]
    exact hm
  · rw [hw.other hq]
    exact h.sound q

/-- A mailbox that is written under an unchanged pending list, on which its record stays. -/
theorem State.blocked_write {m : Mailbox} (hw : s.Writes t r m) (hl : t.sched.refs = s.sched.refs)
    (hrec : r ∈ s.sched.refs → m.record = (s.mailbox r).record) {q : Ref} (hq : q ∈ s.sched.refs) :
    t.blocked q = s.blocked q := by
  have hd : ∀ e ∈ s.sched.refs, t.destination e = s.destination e := by
    intro e he
    by_cases her : e = r
    · subst her
      simp only [State.destination, hw.self, hrec he]
    · exact State.destination_congr (hw.other her)
  exact State.blocked_congr (by simp only [State.earlier, hl]) (hd q hq) (fun e he => hd e (State.mem_earlier he).1)

/-- R54: a mailbox moves among the states on the pending list, or among those off it. -/
theorem State.ListsSafe.write (h : s.ListsSafe o) {m : Mailbox} (hw : s.Writes t r m) (hl : t.sched.refs = s.sched.refs)
    (hrec : r ∈ s.sched.refs → m.record = (s.mailbox r).record)
    (hp : m.state.onPendingList = (s.mailbox r).state.onPendingList) (hm : m.Sound)
    (ho : OnLineMoves o o' r m.state.onLine) (hb : r ∈ s.sched.refs → m.state ≠ .queued → s.blocked r = false) :
    t.ListsSafe o' where
  nodup := by rw [hl]; exact h.nodup
  listed q := by
    rw [hl, h.listed q]
    by_cases hq : q = r
    · rw [hq, hw.self, hp]
    · rw [hw.other hq]
  onLine := h.onLine_write hw ho
  sound := h.sound_write hw hm
  order q hq := by
    rw [hl] at hq
    rw [State.blocked_write hw hl hrec hq]
    by_cases hqr : q = r
    · subst hqr
      rw [hw.self]
      exact hb hq
    · rw [hw.other hqr]
      exact h.order q hq

/-- R75: a mailbox leaves the pending list. -/
theorem State.ListsSafe.leave (h : s.ListsSafe o) {m : Mailbox} (hw : s.Writes t r m)
    (hl : t.sched.refs = s.sched.refs.filter (· != r)) (hp : m.state.onPendingList = false) (hm : m.Sound)
    (ho : OnLineMoves o o' r m.state.onLine) : t.ListsSafe o' where
  nodup := by rw [hl]; exact h.nodup.filter _
  listed q := by
    rw [hl, List.mem_filter, h.listed q]
    by_cases hq : q = r
    · rw [hq, hw.self, hp]
      simp
    · rw [hw.other hq]
      simp [hq]
  onLine := h.onLine_write hw ho
  sound := h.sound_write hw hm
  order q hq hst := by
    rw [hl, List.mem_filter] at hq
    obtain ⟨hmem, hne⟩ := hq
    have hqr : q ≠ r := by simpa using hne
    rw [hw.other hqr] at hst
    have he : t.earlier q = (s.earlier q).filter (· != r) := by
      simp only [State.earlier, hl, takeWhile_filter_ne hqr]
    refine State.blocked_mono (State.destination_congr (hw.other hqr)) (fun e hm => ?_) (fun e hm => ?_) (h.order q hmem hst)
    · rw [he] at hm
      exact List.mem_of_mem_filter hm
    · rw [he, List.mem_filter] at hm
      exact State.destination_congr (hw.other (by simpa using hm.2))

/-- R56: a mailbox is put at the end of the pending list. -/
theorem State.ListsSafe.join (h : s.ListsSafe o) {m : Mailbox} (hw : s.Writes t r m)
    (hl : t.sched.refs = s.sched.refs ++ [r]) (hr : r ∉ s.sched.refs) (hq : m.state = .queued) (hm : m.Sound)
    (ho : o ≠ some r) : t.ListsSafe o where
  nodup := by
    rw [hl]
    exact List.nodup_append.2 ⟨h.nodup, List.nodup_singleton r, fun a ha b hb =>
      fun e => hr (by rw [← List.mem_singleton.1 hb, ← e]; exact ha)⟩
  listed q := by
    rw [hl, List.mem_append, List.mem_singleton, h.listed q]
    by_cases hqr : q = r
    · rw [hqr, hw.self, hq]
      simp [MailState.onPendingList]
    · rw [hw.other hqr]
      simp [hqr]
  onLine := h.onLine_write hw ⟨by simp [hq, MailState.onLine, ho], fun _ _ => Iff.rfl⟩
  sound := h.sound_write hw hm
  order q hmem hst := by
    have hqr : q ≠ r := by
      rintro rfl
      exact hst (by rw [hw.self, hq])
    have hmem' : q ∈ s.sched.refs := by
      rw [hl, List.mem_append, List.mem_singleton] at hmem
      exact hmem.resolve_right hqr
    rw [hw.other hqr] at hst
    have he : t.earlier q = s.earlier q := by simp only [State.earlier, hl, takeWhile_append_of_mem hmem']
    rw [State.blocked_congr he (State.destination_congr (hw.other hqr)) (fun e hm => State.destination_congr (hw.other ?_))]
    · exact h.order q hmem' hst
    · rintro rfl
      exact hr (State.mem_earlier hm).1

/-! ## Frames -/

/-- R54, R75, R76: the invariant rests on mailboxes and pending list alone. -/
theorem State.ListsSafe.congr (h : s.ListsSafe o) (hm : ∀ r, t.mailbox r = s.mailbox r)
    (hl : t.sched.refs = s.sched.refs) : t.ListsSafe o := by
  refine ⟨by rw [hl]; exact h.nodup, fun r => by rw [hl, hm]; exact h.listed r, fun r => by rw [hm]; exact h.onLine r,
    fun r => by rw [hm]; exact h.sound r, fun r hr hst => ?_⟩
  rw [hl] at hr
  rw [hm] at hst
  rw [State.blocked_congr (by simp only [State.earlier, hl]) (State.destination_congr (hm r))
    (fun e _ => State.destination_congr (hm e))]
  exact h.order r hr hst

/-- R66: and on the completion lists. -/
theorem State.CompletionsSound.congr (h : s.CompletionsSound) (hm : ∀ r, t.mailbox r = s.mailbox r)
    (hc : ∀ p, t.completions p = s.completions p) : t.CompletionsSound := by
  intro p
  rw [hc p]
  exact ⟨(h p).1, fun i hi => by rw [hm]; exact (h p).2 i hi⟩

/-- R84: so does whether a LOCAL mailbox is free. -/
theorem State.NoEligibleLocal.congr (h : s.NoEligibleLocal) (hm : ∀ r, t.mailbox r = s.mailbox r)
    (hl : t.sched.refs = s.sched.refs) : t.NoEligibleLocal := by
  intro r hr hloc
  rw [hl] at hr
  rw [State.isLocal_congr (s := s) (by rw [hm])] at hloc
  have hblk : t.blocked r = s.blocked r := State.blocked_congr (by simp only [State.earlier, hl])
    (State.destination_congr (hm r)) (fun e _ => State.destination_congr (hm e))
  have := h r hr hloc
  simpa only [State.free, hm, hblk] using this

theorem State.ListsSafe.frame {l : List Part} (h : s.ListsSafe o) (hf : s.OnlyChanges t l) (hb : Part.boxes ∉ l)
    (hr : Part.refs ∉ l) : t.ListsSafe o := h.congr (hf.mailbox hb) (hf.2 .refs hr)

theorem State.CompletionsSound.frame {l : List Part} (h : s.CompletionsSound) (hf : s.OnlyChanges t l)
    (hb : Part.boxes ∉ l) (hc : Part.completions ∉ l) : t.CompletionsSound :=
  h.congr (hf.mailbox hb) (hf.completions hc)

theorem State.BankSafe.frame {l : List Part} (h : s.BankSafe o) (hf : s.OnlyChanges t l) (hb : Part.boxes ∉ l)
    (hr : Part.refs ∉ l) (hc : Part.completions ∉ l) : t.BankSafe o :=
  ⟨h.1.frame hf hb hr, h.2.frame hf hb hc⟩

theorem State.NoEligibleLocal.frame {l : List Part} (h : s.NoEligibleLocal) (hf : s.OnlyChanges t l)
    (hb : Part.boxes ∉ l) (hr : Part.refs ∉ l) : t.NoEligibleLocal := h.congr (hf.mailbox hb) (hf.2 .refs hr)

/-! ## Completion lists -/

/-- R66: a mailbox that is not DONE is on no completion list. -/
theorem State.CompletionsSound.not_mem (h : s.CompletionsSound) (hr : (s.mailbox r).state ≠ .done) :
    r.index ∉ s.completions r.port := fun hm => hr ((h r.port).2 r.index hm)

/-- A write of a mailbox that is not DONE leaves the completion lists sound. -/
theorem State.CompletionsSound.write (h : s.CompletionsSound) {m : Mailbox} (hw : s.Writes t r m)
    (hc : ∀ p, t.completions p = s.completions p) (hr : (s.mailbox r).state ≠ .done) : t.CompletionsSound := by
  intro p
  rw [hc p]
  refine ⟨(h p).1, fun i hi => ?_⟩
  rw [hw.other]
  · exact (h p).2 i hi
  · rintro rfl
    exact h.not_mem hr hi

/-- R66: a mailbox that enters DONE goes to the end of its port's completion list. -/
theorem State.CompletionsSound.append (h : s.CompletionsSound) {m : Mailbox} (hw : s.Writes t r m)
    (hc : ∀ p, t.completions p = if p = r.port then s.completions r.port ++ [r.index] else s.completions p)
    (hr : (s.mailbox r).state ≠ .done) (hm : m.state = .done) : t.CompletionsSound := by
  have hdone : ∀ p, ∀ i ∈ s.completions p, (t.mailbox ⟨p, i⟩).state = .done := by
    intro p i hi
    rw [hw ⟨p, i⟩]
    split
    · exact hm
    · exact (h p).2 i hi
  intro p
  rw [hc p]
  split
  next hp =>
    subst hp
    refine ⟨List.nodup_append.2 ⟨(h _).1, List.nodup_singleton _, ?_⟩, fun i hi => ?_⟩
    · rintro a ha b hb rfl
      rw [List.mem_singleton.1 hb] at ha
      exact h.not_mem hr ha
    · rcases List.mem_append.1 hi with hi | hi
      · exact hdone _ i hi
      · rw [List.mem_singleton.1 hi, hw.self, hm]
  next => exact ⟨(h p).1, hdone p⟩

/-- R55, R56, R69: a mailbox that leaves its port's completion list may be written at will. -/
theorem State.CompletionsSound.drop (h : s.CompletionsSound) {m : Mailbox} (hw : s.Writes t r m)
    (hc : ∀ p, t.completions p
      = if p = r.port then (s.completions r.port).filter (· != r.index) else s.completions p) : t.CompletionsSound := by
  intro p
  rw [hc p]
  split
  next hp =>
    subst hp
    refine ⟨(h _).1.filter _, fun i hi => ?_⟩
    rw [List.mem_filter] at hi
    rw [hw.other]
    · exact (h _).2 i hi.1
    · exact fun he => absurd (congrArg Ref.index he) (by simpa using hi.2)
  next hp =>
    refine ⟨(h p).1, fun i hi => ?_⟩
    rw [hw.other]
    · exact (h p).2 i hi
    · rintro rfl
      exact hp rfl

end Sys2Proof.Machine
end

section
/-! What the operations of the mailbox bank keep of its invariant (O59): completion, release, withdrawal, settling, hold-off,
the local hand-off decision (R57 to R66, R71 to R73, R84, R85). -/

namespace Sys2Proof.Machine

variable {s t : State} {r : Ref} {o o' : Option Ref}

/-! ## The frame on the line -/

theorem State.ListsSafe.not_sent (h : s.ListsSafe o) (hr : (s.mailbox r).state.onLine = false) : o ≠ some r :=
  fun e => by rw [(h.onLine r).2 e] at hr; cases hr

/-- A mailbox whose frame is not on the line stays so. -/
theorem OnLineMoves.still (h : o ≠ some r) : OnLineMoves o o r false := ⟨by simp [h], fun _ _ => Iff.rfl⟩

/-- The frame of `r` leaves the line. -/
theorem OnLineMoves.ends (r : Ref) : OnLineMoves (some r) none r false :=
  ⟨by simp, fun q hq => by simp [Ne.symm hq]⟩

/-- The frame of `r` goes on the line. -/
theorem OnLineMoves.starts (r : Ref) : OnLineMoves none (some r) r true :=
  ⟨by simp, fun q hq => by simp [Ne.symm hq]⟩

/-- The frame of `r` stays on the line. -/
theorem OnLineMoves.stays (r : Ref) : OnLineMoves (some r) (some r) r true := ⟨by simp, fun _ _ => Iff.rfl⟩

/-- A mailbox that keeps its place with regard to the line. -/
theorem State.ListsSafe.onLine_same (h : s.ListsSafe o) {b : Bool} (hb : b = (s.mailbox r).state.onLine) :
    OnLineMoves o o r b := ⟨by rw [hb]; exact h.onLine r, fun _ _ => Iff.rfl⟩

/-! ## Mailboxes -/

/-- R52, R53: what a mailbox on the pending list holds. -/
theorem Mailbox.Sound.pending {m : Mailbox} (h : m.Sound) (hp : m.state.onPendingList = true) :
    m.record ≠ none ∧ m.outcome = none ∧ m.cause = none ∧ m.state ≠ .done := by
  obtain ⟨hv, hd, hc, -⟩ := h
  have hnv : m.state ≠ .vacant := fun e => by rw [e] at hp; cases hp
  have hnd : m.state ≠ .done := fun e => by rw [e] at hp; cases hp
  have hout : m.outcome = none := not_not.1 (mt hd.2 hnd)
  refine ⟨fun e => hnv (hv.2 e), hout, not_not.1 (mt hc.2 ?_), hnd⟩
  rw [hout]
  decide

/-- Only a SENDING mailbox is abort-pending (R53). -/
theorem Mailbox.Sound.no_abort {m : Mailbox} (h : m.Sound) (hs : m.state ≠ .sending) : m.abortPending = false := by
  obtain ⟨-, -, -, ha, -⟩ := h
  exact Bool.eq_false_iff.2 (mt ha hs)

/-- R66: a mailbox of the pending list that enters DONE. -/
theorem Mailbox.Sound.completed {m : Mailbox} (h : m.Sound) (hp : m.state.onPendingList = true)
    (ha : m.abortPending = false) {out : MailOutcome} {c : Option ExpiryCause} (hx : out = .expired ↔ c ≠ none) :
    Mailbox.Sound { m with state := .done, outcome := some out, cause := c, holdOff := 0 } := by
  obtain ⟨hrec, -⟩ := h.pending hp
  obtain ⟨-, -, -, -, -, hr⟩ := h
  refine ⟨by simp [hrec], by simp, by simpa using hx, by simp [ha], fun _ => rfl, fun rec hm => ?_⟩
  obtain ⟨hpay, hatt, -⟩ := hr rec hm
  exact ⟨hpay, hatt, by simp, by simp, by simp⟩

/-- A mailbox of the pending list that takes another state on it: the attempts and the kind have to fit. -/
theorem Mailbox.Sound.moved {m : Mailbox} (h : m.Sound) (hp : m.state.onPendingList = true) {st : MailState} {n : Nat}
    {abort late : Bool} {hold : BitVec 8} (hst : st.onPendingList = true) (ha : abort = true → st = .sending)
    (hr : ∀ rec ∈ m.record, n ≤ rec.retryLimit.toNat + 1 ∧ ((st = .queued ∨ st = .held) → n ≤ rec.retryLimit.toNat)
      ∧ (st = .waitingSpace → rec.kind = .localHandOff)
      ∧ ((st = .sending ∨ st = .held ∨ st = .retiring) → rec.kind ≠ .localHandOff)) :
    Mailbox.Sound { m with state := st, attempts := n, abortPending := abort, lateAbort := late, holdOff := hold } := by
  obtain ⟨hrec, hout, hcause, -⟩ := h.pending hp
  obtain ⟨-, -, -, -, -, hm⟩ := h
  refine ⟨iff_of_false ?_ hrec, iff_of_false ?_ (by simp [hout]), by simp [hout, hcause], ha, fun e => ?_,
    fun rec hmem => ⟨(hm rec hmem).1, hr rec hmem⟩⟩
  · rintro rfl; cases hst
  · rintro rfl; cases hst
  · cases e; cases hst

/-- R57, R61: a round boundary keeps a mailbox sound. -/
theorem Mailbox.Sound.atRoundBoundary {m : Mailbox} (h : m.Sound) : m.atRoundBoundary.Sound := by
  unfold Mailbox.atRoundBoundary
  split
  next hq =>
    have ha := h.no_abort (by rw [hq]; decide)
    have hm := h.moved (hold := m.holdOff - (if m.holdOff == 0 then 0 else 1)) (late := m.lateAbort) (st := m.state)
      (n := m.attempts) (abort := m.abortPending) (by rw [hq]; rfl) (by rw [hq]; rfl) (by simp [ha])
    obtain ⟨-, -, -, -, -, hr⟩ := h
    exact hm fun rec hmem => (hr rec hmem).2
  next hq =>
    have ha := h.no_abort (by rw [hq]; decide)
    obtain ⟨-, -, -, -, -, hr⟩ := id h
    refine h.moved (by rw [hq]; rfl) rfl (by simp [ha]) fun rec hmem => ?_
    obtain ⟨-, hatt, hlim, -⟩ := hr rec hmem
    exact ⟨hatt, fun _ => hlim (.inr hq), by simp, by simp⟩
  all_goals exact h

/-! ## Writes -/

theorem State.putMailbox_writes (s : State) (r : Ref) (m : Mailbox) : s.Writes (s.putMailbox r m) r m :=
  fun q => s.putMailbox_mailbox r q m

theorem State.complete_writes (s : State) (r : Ref) (out : MailOutcome) (c : Option ExpiryCause) :
    s.Writes (s.complete r out c) r { s.mailbox r with state := .done, outcome := some out, cause := c, holdOff := 0 } :=
  fun q => s.complete_mailbox r q out c

theorem State.vacate_writes (s : State) (r : Ref) : s.Writes (s.vacate r) r .vacant := fun q => s.vacate_mailbox r q

/-- R66: the completion of a mailbox of the pending list. -/
theorem State.BankSafe.complete (h : s.BankSafe o) (hp : (s.mailbox r).state.onPendingList = true)
    (ha : (s.mailbox r).abortPending = false) {out : MailOutcome} {c : Option ExpiryCause}
    (hx : out = .expired ↔ c ≠ none) (ho : OnLineMoves o o' r false) : (s.complete r out c).BankSafe o' := by
  obtain ⟨hl, hc⟩ := h
  have hw := s.complete_writes r out c
  have hnd := ((hl.sound r).pending hp).2.2.2
  exact ⟨hl.leave hw rfl rfl ((hl.sound r).completed hp ha hx) ho,
    hc.append hw (fun p => s.complete_completions r out c p) hnd rfl⟩

/-- The completion of a mailbox that waits, without a frame on the line. -/
theorem State.BankSafe.complete_waiting (h : s.BankSafe o)
    (hst : (s.mailbox r).state = .queued ∨ (s.mailbox r).state = .held ∨ (s.mailbox r).state = .waitingSpace)
    {out : MailOutcome} (hx : out ≠ .expired) : (s.complete r out none).BankSafe o := by
  refine h.complete ?_ ((h.1.sound r).no_abort ?_) (by simp [hx]) (.still (h.1.not_sent ?_))
  all_goals rcases hst with e | e | e <;> rw [e] <;> decide

/-- R72, R73: a mailbox becomes VACANT. -/
theorem State.ListsSafe.vacate (h : s.ListsSafe o) (ho : OnLineMoves o o' r false) : (s.vacate r).ListsSafe o' :=
  h.leave (s.vacate_writes r) rfl rfl Mailbox.vacant_sound ho

/-- A mailbox of the pending list moves to another state on it. -/
theorem State.BankSafe.put (h : s.BankSafe o) (hp : (s.mailbox r).state.onPendingList = true) {m : Mailbox}
    (hrec : m.record = (s.mailbox r).record) (hst : m.state.onPendingList = true) (hm : m.Sound)
    (ho : OnLineMoves o o' r m.state.onLine) (hb : m.state ≠ .queued → s.blocked r = false) :
    (s.putMailbox r m).BankSafe o' :=
  have hw := s.putMailbox_writes r m
  ⟨h.1.write hw rfl (fun _ => hrec) (hst.trans hp.symm) hm ho (fun _ => hb),
    h.2.write hw (fun _ => rfl) ((h.1.sound r).pending hp).2.2.2⟩

/-- R84: a mailbox that is written off QUEUED frees no LOCAL mailbox. -/
theorem State.NoEligibleLocal.write (h : s.NoEligibleLocal) {m : Mailbox} (hw : s.Writes t r m)
    (hl : t.sched.refs = s.sched.refs) (hrec : r ∈ s.sched.refs → m.record = (s.mailbox r).record) (hm : m.state ≠ .queued) :
    t.NoEligibleLocal := by
  intro q hq hloc
  rw [hl] at hq
  have hblk := State.blocked_write hw hl hrec hq
  by_cases hqr : q = r
  · subst hqr
    simp [State.free, hw.self, hm]
  · rw [State.isLocal_congr (s := s) (by rw [hw.other hqr])] at hloc
    have := h q hq hloc
    simpa only [State.free, hw.other hqr, hblk] using this

/-- R54, R76: a mailbox that has left QUEUED, and is on the pending list, is not blocked. -/
theorem State.ListsSafe.not_blocked (h : s.ListsSafe o) (hp : (s.mailbox r).state.onPendingList = true)
    (hq : (s.mailbox r).state ≠ .queued) : s.blocked r = false := h.order r ((h.listed r).2 hp) hq

/-! ## The local hand-off decision -/

/-- R85: the decision for a LOCAL mailbox: it waits, is handed off, or is refused. -/
theorem State.decideLocal_cases (s : State) (r : Ref) (rec : MailRecord) :
    s.decideLocal r rec = s.waitForSpace r
      ∨ (∃ p i, s.decideLocal r rec = s.handOff r rec p i)
      ∨ s.decideLocal r rec = s.complete r .refused none := by
  unfold State.decideLocal
  split
  next p _ _ =>
    split
    · exact .inl rfl
    · split
      · exact .inl rfl
      next i _ => exact .inr (.inl ⟨p, i, rfl⟩)
  next => exact .inr (.inr rfl)

/-- R84: a pass leaves a reference that is not a free LOCAL mailbox, or decides it if it is LOCAL and free, or
WAITING_SPACE. -/
theorem State.passAt_decides (retry : Bool) (s : State) (r : Ref) :
    (State.passAt retry s r = s ∧ (s.isLocal r = true → s.free r = false))
      ∨ s.isLocal r = true ∧ (s.free r = true ∨ (s.mailbox r).state = .waitingSpace)
        ∧ ∃ rec, State.passAt retry s r = s.decideLocal r rec := by
  unfold State.passAt State.isLocal State.kind
  cases hrec : (s.mailbox r).record with
  | none => exact .inl ⟨rfl, fun h => by simp at h⟩
  | some rec =>
    simp only [Option.map_some]
    split
    next hc =>
      simp only [Bool.and_eq_true, Bool.or_eq_true, beq_iff_eq] at hc
      exact .inr ⟨by simp [hc.1], hc.2.imp_right (·.2), rec, rfl⟩
    next hc =>
      refine .inl ⟨rfl, fun hk => ?_⟩
      simp only [beq_iff_eq, Option.some.injEq] at hk
      cases hf : s.free r
      · rfl
      · simp [hk, hf] at hc

/-- R84: a free mailbox is QUEUED, its hold-off is over, and it is not blocked. -/
theorem State.free_iff (s : State) (r : Ref) :
    s.free r = true ↔ (s.mailbox r).state = .queued ∧ (s.mailbox r).holdOff = 0 ∧ s.blocked r = false := by
  simp [State.free, and_assoc]

/-- The states that a pass decides are states of the pending list, without a frame on the line. -/
theorem State.decided_state (h : s.free r = true ∨ (s.mailbox r).state = .waitingSpace) :
    (s.mailbox r).state = .queued ∨ (s.mailbox r).state = .waitingSpace := h.imp_left fun hf => ((s.free_iff r).1 hf).1

theorem State.BankSafe.waitForSpace (h : s.BankSafe o) (hl : s.isLocal r = true)
    (hst : s.free r = true ∨ (s.mailbox r).state = .waitingSpace) : (s.waitForSpace r).BankSafe o := by
  have hs := State.decided_state hst
  have hp : (s.mailbox r).state.onPendingList = true := by rcases hs with e | e <;> rw [e] <;> rfl
  have hab : (s.mailbox r).abortPending = false := (h.1.sound r).no_abort (by rcases hs with e | e <;> rw [e] <;> decide)
  have hatt : ∀ rec ∈ (s.mailbox r).record, (s.mailbox r).attempts ≤ rec.retryLimit.toNat + 1 := by
    obtain ⟨-, -, -, -, -, hr⟩ := h.1.sound r
    exact fun rec hm => (hr rec hm).2.1
  have hkind : ∀ rec ∈ (s.mailbox r).record, rec.kind = .localHandOff := by
    intro rec hm
    rw [Option.mem_def] at hm
    simpa [State.isLocal, State.kind, hm] using hl
  refine h.put hp (m := { s.mailbox r with state := .waitingSpace }) rfl rfl
    ((h.1.sound r).moved hp rfl (by simp [hab]) fun rec hm => ⟨hatt rec hm, by simp, fun _ => hkind rec hm, by simp⟩)
    (.still (h.1.not_sent (by rcases hs with e | e <;> rw [e] <;> rfl))) fun _ => ?_
  rcases hst with hf | hw
  · exact ((s.free_iff r).1 hf).2.2
  · exact h.1.not_blocked hp (by rw [hw]; decide)

/-- R85: the decision keeps the bank. -/
theorem State.BankSafe.decideLocal (h : s.BankSafe o) (hl : s.isLocal r = true)
    (hst : s.free r = true ∨ (s.mailbox r).state = .waitingSpace) (rec : MailRecord) : (s.decideLocal r rec).BankSafe o := by
  have hs : (s.mailbox r).state = .queued ∨ (s.mailbox r).state = .held ∨ (s.mailbox r).state = .waitingSpace :=
    (State.decided_state hst).imp_right Or.inr
  rcases s.decideLocal_cases r rec with e | ⟨p, i, e⟩ | e
  · rw [e]
    exact h.waitForSpace hl hst
  · rw [e]
    have hd : (s.writeSlot i rec.payload).BankSafe o := h.frame (s.writeSlot_only i _) (by decide) (by decide) (by decide)
    exact (hd.frame (State.appendRecord_only _ p _) (by decide) (by decide) (by decide)).complete_waiting
      (r := r) hs (by decide)
  · rw [e]
    exact h.complete_waiting hs (by decide)

theorem State.BankSafe.passAt (h : s.BankSafe o) (retry : Bool) (r : Ref) : (State.passAt retry s r).BankSafe o := by
  rcases State.passAt_decides retry s r with ⟨e, -⟩ | ⟨hl, hst, rec, e⟩
  · rw [e]
    exact h
  · rw [e]
    exact h.decideLocal hl hst rec

theorem State.BankSafe.localPass (h : s.BankSafe o) (retry : Bool) : (s.localPass retry).BankSafe o :=
  State.localPass_keeps (P := fun u => u.BankSafe o) retry (fun _ r hu => hu.passAt retry r) h

/-! ## After a local pass no LOCAL mailbox is free -/

/-- R85: the decided mailbox is not free afterwards; it stays in its place or leaves the pending list. -/
theorem State.decideLocal_self (s : State) (r : Ref) (rec : MailRecord) :
    (s.decideLocal r rec).free r = false
      ∧ ((s.decideLocal r rec).sched.refs = s.sched.refs
        ∨ (s.decideLocal r rec).sched.refs = s.sched.refs.filter (· != r)) := by
  rcases s.decideLocal_cases r rec with e | ⟨p, i, e⟩ | e
  · rw [e]
    exact ⟨by simp [State.free, State.waitForSpace], .inl rfl⟩
  · rw [e]
    exact ⟨by simp [State.free, State.handOff], .inr rfl⟩
  · rw [e]
    exact ⟨by simp [State.free], .inr rfl⟩

theorem State.decideLocal_other (s : State) {q : Ref} (h : q ≠ r) (rec : MailRecord) :
    (s.decideLocal r rec).mailbox q = s.mailbox q := by
  rcases s.decideLocal_cases r rec with e | ⟨p, i, e⟩ | e
  · rw [e]
    exact (State.waitForSpace_leaves h).mailbox
  · rw [e]
    exact (State.handOff_leaves h rec p i).mailbox
  · rw [e]
    exact (State.complete_leaves h _ _).mailbox

/-- A reference of the list that is not free stays so while references behind it are decided. -/
theorem State.free_keeps {q : Ref} (hm : ∀ e, e = q ∨ e ∈ s.earlier q → t.mailbox e = s.mailbox e)
    (he : t.earlier q = s.earlier q) (h : s.free q = false) : t.free q = false := by
  have hq := hm q (.inl rfl)
  have hblk : t.blocked q = s.blocked q :=
    State.blocked_congr he (State.destination_congr hq) fun e hmem => State.destination_congr (hm e (.inr hmem))
  simpa only [State.free, hq, hblk] using h

/-- R84: one reference of a pass: what stands before it stays as decided, and it is not free when the pass goes on. -/
theorem State.passAt_step (retry : Bool) {kept todo : List Ref} (hn : s.sched.refs.Nodup)
    (hl : s.sched.refs = kept ++ r :: todo) (hk : ∀ q ∈ kept, s.isLocal q = true → s.free q = false) :
    ∃ kept', (State.passAt retry s r).sched.refs = kept' ++ todo
      ∧ ∀ q ∈ kept', (State.passAt retry s r).isLocal q = true → (State.passAt retry s r).free q = false := by
  have hkeep : s.sched.refs = (kept ++ [r]) ++ todo := by rw [hl]; simp
  rcases State.passAt_decides retry s r with ⟨e, hf⟩ | ⟨-, -, rec, e⟩
  · rw [e]
    refine ⟨kept ++ [r], hkeep, fun q hq => ?_⟩
    rcases List.mem_append.1 hq with hq | hq
    · exact hk q hq
    · rw [List.mem_singleton.1 hq]
      exact hf
  · rw [e]
    obtain ⟨hself, hrefs⟩ := s.decideLocal_self r rec
    rw [hl, List.nodup_append] at hn
    obtain ⟨-, hnr, hdisj⟩ := hn
    have hrk : r ∉ kept := fun hm => hdisj r hm r List.mem_cons_self rfl
    have hrt : r ∉ todo := (List.nodup_cons.1 hnr).1
    obtain ⟨m, hl', hm⟩ : ∃ m, (s.decideLocal r rec).sched.refs = (kept ++ m) ++ todo ∧ ∀ q ∈ m, q = r := by
      rcases hrefs with h | h
      · exact ⟨[r], h.trans hkeep, by simp⟩
      · refine ⟨[], ?_, by simp⟩
        rw [h, hl, List.filter_append, List.filter_cons, List.append_nil]
        simp only [bne_self_eq_false, Bool.false_eq_true, if_false]
        rw [List.filter_eq_self.2 fun a ha => by simpa using fun he : a = r => hrk (he ▸ ha),
          List.filter_eq_self.2 fun a ha => by simpa using fun he : a = r => hrt (he ▸ ha)]
    refine ⟨_, hl', fun q hq hloc => ?_⟩
    by_cases hqr : q = r
    · rw [hqr]
      exact hself
    · have hqk : q ∈ kept := (List.mem_append.1 hq).resolve_right fun h => hqr (hm q h)
      have hearl : s.earlier q = kept.takeWhile (· != q) := by
        rw [State.earlier, hl, takeWhile_append_of_mem hqk]
      rw [State.isLocal_congr (s := s) (by rw [s.decideLocal_other hqr rec])] at hloc
      refine State.free_keeps (fun x hx => s.decideLocal_other ?_ rec) ?_ (hk q hqk hloc)
      · rintro rfl
        rcases hx with hx | hx
        · exact hqr hx.symm
        · rw [hearl] at hx
          exact hrk (List.takeWhile_subset _ hx)
      · rw [hearl, State.earlier, hl', List.append_assoc, takeWhile_append_of_mem hqk]

theorem State.foldl_passAt_noEligible (retry : Bool) (todo : List Ref) : ∀ {s : State} {kept : List Ref}, s.BankSafe o →
    s.sched.refs = kept ++ todo → (∀ q ∈ kept, s.isLocal q = true → s.free q = false) →
    (todo.foldl (State.passAt retry) s).NoEligibleLocal := by
  induction todo with
  | nil =>
    intro s kept _ hl hk r hr
    rw [List.foldl_nil, hl, List.append_nil] at hr
    exact hk r hr
  | cons r todo ih =>
    intro s kept hs hl hk
    obtain ⟨kept', hl', hk'⟩ := State.passAt_step retry hs.1.nodup hl hk
    exact ih (hs.passAt retry r) hl' hk'

/-- R84: after a local pass no LOCAL mailbox is both QUEUED and eligible. -/
theorem State.BankSafe.localPass_noEligible (h : s.BankSafe o) (retry : Bool) : (s.localPass retry).NoEligibleLocal :=
  State.foldl_passAt_noEligible retry s.sched.refs (kept := []) h rfl (by simp)

end Sys2Proof.Machine
end

section
/-! O59, event by event: a sound bank stays sound, and where a LOCAL mailbox may have become free the event raises it for the
local pass that ends it (R84, R88). -/

namespace Sys2Proof.Machine

variable {s t : State} {r : Ref} {o : Option Ref} {u : Upd}

/-! ## What an event raises -/

/-- Between events: the bank is sound, and no LOCAL mailbox is free. -/
def State.BankSettled (s : State) (o : Option Ref) : Prop := s.BankSafe o ∧ s.NoEligibleLocal

theorem State.BankSettled.congr (h : s.BankSettled o) (hm : ∀ r, t.mailbox r = s.mailbox r)
    (hl : t.sched.refs = s.sched.refs) (hc : ∀ p, t.completions p = s.completions p) : t.BankSettled o :=
  ⟨⟨h.1.1.congr hm hl, h.1.2.congr hm hc⟩, h.2.congr hm hl⟩

theorem State.BankSettled.frame {l : List Part} (h : s.BankSettled o) (hf : s.OnlyChanges t l) (hb : Part.boxes ∉ l)
    (hr : Part.refs ∉ l) (hc : Part.completions ∉ l) : t.BankSettled o :=
  ⟨h.1.frame hf hb hr hc, h.2.frame hf hb hr⟩

/-- Inside an event that began in `s`: the bank is sound, and a LOCAL mailbox has become free only if a removal from the
pending list has been raised. -/
def Upd.From (u : Upd) (s : State) (o : Option Ref) : Prop :=
  u.state.BankSafe o ∧ (u.removed = false → s.NoEligibleLocal → u.state.NoEligibleLocal)

theorem Upd.From.start (h : s.BankSafe o) : (Upd.start s).From s o := ⟨h, fun _ hn => hn⟩

theorem Upd.From.on (h : u.From s o) {f : State → State} {l : List Part} (hf : ∀ t : State, t.OnlyChanges (f t) l)
    (hb : Part.boxes ∉ l) (hr : Part.refs ∉ l) (hc : Part.completions ∉ l) : (u.on f).From s o :=
  ⟨h.1.frame (hf u.state) hb hr hc, fun hrem hn => (h.2 hrem hn).frame (hf u.state) hb hr⟩

theorem Upd.From.andThen (h : u.From s o) {f : State → Upd} (hf : ∀ t : State, t.BankSafe o → (f t).From t o) :
    (u.andThen f).From s o := by
  obtain ⟨hs, hn⟩ := hf u.state h.1
  refine ⟨hs, fun hrem hns => ?_⟩
  rw [(Upd.andThen_parts u f).2.1, Bool.or_eq_false_iff] at hrem
  exact hn hrem.2 (h.2 hrem.1 hns)

theorem Upd.From.each {α : Type} (h : u.From s o) (l : List α) {f : α → State → Upd}
    (hf : ∀ a, ∀ t : State, t.BankSafe o → (f a t).From t o) : (u.each l f).From s o := by
  induction l generalizing u with
  | nil => exact h
  | cons a l ih => exact ih (h.andThen (hf a))

/-- An action that leaves mailboxes and lists. -/
theorem Upd.From.of_only {l : List Part} (h : s.BankSafe o) (hf : s.OnlyChanges u.state l) (hb : Part.boxes ∉ l)
    (hr : Part.refs ∉ l) (hc : Part.completions ∉ l) : u.From s o :=
  ⟨h.frame hf hb hr hc, fun _ hn => hn.frame hf hb hr⟩

/-- An action that raises a removal need not leave the LOCAL mailboxes as they are. -/
theorem Upd.From.of_removed (h : u.state.BankSafe o) (hr : u.removed = true) : u.From s o :=
  ⟨h, fun hf => by rw [hr] at hf; cases hf⟩

theorem State.BankSafe.settled_localPass (h : s.BankSafe o) (retry : Bool) : (s.localPass retry).BankSettled o :=
  ⟨h.localPass retry, h.localPass_noEligible retry⟩

/-- R84: the end of an event. -/
theorem Upd.From.finish (h : u.From s o) (hs : s.NoEligibleLocal) : u.finish.BankSettled o := by
  unfold Upd.finish
  split
  · exact h.1.settled_localPass true
  · split
    · exact h.1.settled_localPass false
    next hrem => exact ⟨h.1, h.2 (by simpa using hrem) hs⟩

/-! ## Entry to OFFLINE and moves of the line state -/

theorem State.withdrawable_state (h : s.withdrawable r = true) :
    (s.mailbox r).state = .queued ∨ (s.mailbox r).state = .held := by
  simp only [State.withdrawable, Bool.and_eq_true, Bool.or_eq_true, beq_iff_eq] at h
  exact h.2

/-- R71: a withdrawal. -/
theorem State.BankSafe.withdrawOne (h : s.BankSafe o) (r : Ref) : (State.withdrawOne r s).From s o := by
  unfold State.withdrawOne
  split
  next hw =>
    have hst := State.withdrawable_state hw
    exact .of_removed (h.complete_waiting (hst.imp_right .inl) (by decide)) rfl
  next => exact .start h

theorem State.BankSafe.withdrawAll (h : s.BankSafe o) : s.withdrawAll.From s o :=
  (Upd.From.start h).each s.sched.refs fun r _ ht => ht.withdrawOne r

/-- R30: entry to OFFLINE. -/
theorem State.BankSafe.enterOffline (h : s.BankSafe o) : s.enterOffline.From s o :=
  ((Upd.From.of_only h s.lineOffline_only (by decide) (by decide) (by decide)).andThen
    fun _ ht => ht.withdrawAll).on (fun t => t.putFault_only _) (by decide) (by decide) (by decide)

theorem State.BankSafe.putLineState (h : s.BankSafe o) (l : LineState) : (s.putLineState l).BankSafe o :=
  h.frame (s.putLineState_only l) (by decide) (by decide) (by decide)

/-- The state from which an event is seen may differ from the one where it began outside mailboxes and pending list. -/
theorem Upd.From.of_frame {l : List Part} (h : u.From t o) (hf : s.OnlyChanges t l) (hb : Part.boxes ∉ l)
    (hr : Part.refs ∉ l) : u.From s o := ⟨h.1, fun hrem hn => h.2 hrem (hn.frame hf hb hr)⟩

/-- R25 to R30: the line state moves. -/
theorem State.BankSafe.moveLineState (h : s.BankSafe o) (l : LineState) : (s.moveLineState l).From s o := by
  unfold State.moveLineState
  split
  · exact .start h
  · cases l with
    | offline =>
      exact (h.putLineState .offline).enterOffline.of_frame (s.putLineState_only _) (by decide) (by decide)
    | syncing =>
      exact .of_only h (((s.putLineState_only .syncing).mono (m := [.lineState, .line]) (by decide)).seq
        (State.putLine_only _ _) (by decide)) (by decide) (by decide) (by decide)
    | leaving =>
      exact .of_only h (((s.putLineState_only .leaving).mono (m := [.lineState, .store, .line]) (by decide)).seq
        (State.abandonReception_only _) (by decide)) (by decide) (by decide) (by decide)
    | active => exact .of_only h (s.putLineState_only .active) (by decide) (by decide) (by decide)

theorem State.BankSafe.applyVotes (h : s.BankSafe o) (v : Vector Vote 3) : (s.applyVotes v).From s o := by
  have hv : (s.putVotes v).BankSafe o := h.frame (s.putVotes_only v) (by decide) (by decide) (by decide)
  exact ((hv.moveLineState _).of_frame (s.putVotes_only v) (by decide) (by decide)).on
    (fun t => State.announceLine_only t s) (by decide) (by decide) (by decide)

/-- R29: in LEAVING the membership unit takes a transmission end. -/
theorem State.BankSafe.leaveAtEnd (h : s.BankSafe o) : s.leaveAtEnd.From s o := by
  unfold State.leaveAtEnd
  split
  · exact (h.moveLineState .offline).on (fun t => State.announceLine_only t s) (by decide) (by decide) (by decide)
  · exact .start h

/-! ## Transmission end -/

/-- R59: a failed attempt within the retry limit leaves the mailbox HELD. -/
theorem State.BankSafe.putHeld (h : s.BankSafe (some r)) (hst : (s.mailbox r).state = .sending)
    (ha : (s.mailbox r).abortPending = false)
    (hlim : (s.mailbox r).attempts ≤ ((s.mailbox r).record.map (·.retryLimit.toNat)).getD 0) :
    (s.putMailbox r { s.mailbox r with state := .held }).BankSafe none := by
  have hp : (s.mailbox r).state.onPendingList = true := by rw [hst]; rfl
  refine h.put hp rfl rfl ((h.1.sound r).moved hp rfl (by simp [ha]) fun rec hm => ?_) (.ends r)
    fun _ => h.1.not_blocked hp (by rw [hst]; decide)
  rw [Option.mem_def] at hm
  rw [hm] at hlim
  obtain ⟨-, -, -, -, -, hr⟩ := h.1.sound r
  obtain ⟨-, hatt, -, -, hkind⟩ := hr rec hm
  exact ⟨hatt, fun _ => hlim, by simp, fun _ => hkind (.inl hst)⟩

/-- R59, R60: the attempt of a SENDING mailbox is settled. -/
theorem State.BankSafe.settleAttempt (h : s.BankSafe (some r)) (hst : (s.mailbox r).state = .sending)
    (ha : (s.mailbox r).abortPending = false) (raw : RawResult) : (s.settleAttempt r raw).From s none := by
  have hp : (s.mailbox r).state.onPendingList = true := by rw [hst]; rfl
  have hdone : ∀ {out : MailOutcome} {c : Option ExpiryCause}, (out = .expired ↔ c ≠ none) →
      (s.completeUpd r out c).From s none := fun hx => .of_removed (h.complete hp ha hx (.ends r)) rfl
  have hheld : (s.mailbox r).attempts ≤ ((s.mailbox r).record.map (·.retryLimit.toNat)).getD 0 →
      (Upd.start (s.putMailbox r { s.mailbox r with state := .held })).From s none := fun hlim =>
    ⟨h.putHeld hst ha hlim, fun _ hn => hn.write (s.putMailbox_writes r _) rfl (fun _ => rfl) (by simp)⟩
  cases raw with
  | accept | refuse | sentClean => exact hdone (by decide)
  | defer | noReply | badReply | collision =>
    simp only [State.settleAttempt]
    split
    · exact hdone (by decide)
    next hlim => exact hheld (Nat.not_lt.1 hlim)

/-- R64: so is that of one with abort-pending. -/
theorem State.BankSafe.settleAborted (h : s.BankSafe (some r)) (hst : (s.mailbox r).state = .sending) (raw : RawResult) :
    (s.settleAborted r raw).From s none := by
  have hp : (s.mailbox r).state.onPendingList = true := by rw [hst]; rfl
  have hlate : ∀ b, (s.putMailbox r { s.mailbox r with abortPending := false, lateAbort := b }).BankSafe (some r) := by
    intro b
    obtain ⟨-, -, -, -, -, hr⟩ := h.1.sound r
    exact h.put hp (m := { s.mailbox r with abortPending := false, lateAbort := b }) rfl hp
      ((h.1.sound r).moved hp hp (by simp) fun rec hm => (hr rec hm).2) (h.1.onLine_same rfl)
      fun hq => h.1.not_blocked hp hq
  have hdone : ∀ b {out : MailOutcome}, out ≠ .expired →
      ((s.putMailbox r { s.mailbox r with abortPending := false, lateAbort := b }).completeUpd r out none).From s none :=
    fun b out hx => .of_removed ((hlate b).complete (by simpa using hp) (by simp) (by simp [hx]) (.ends r)) rfl
  cases raw <;> exact hdone _ (by decide)

/-- R59, R60, R64, R73: the mailbox bank takes the transmission end of the frame on the line. -/
theorem State.BankSafe.settle (h : s.BankSafe (some r)) (raw : RawResult) : (s.settle r raw).From s none := by
  have hon := (h.1.onLine r).2 rfl
  unfold State.settle
  split
  next hst =>
    split
    · exact h.settleAborted hst raw
    next ha => exact h.settleAttempt hst (by simpa using ha) raw
  next hst =>
    exact .of_removed ⟨h.1.vacate (.ends r), h.2.write (s.vacate_writes r) (fun _ => rfl) (by rw [hst]; decide)⟩ rfl
  all_goals
    next hst =>
      rw [hst] at hon
      cases hon

/-- R132, R133: the echo, and the local pass that may come before it. -/
theorem Upd.From.echo (h : u.From s o) (f : OwnFrame) : (u.echo f).From s o := by
  unfold Upd.echo
  split
  · exact h
  next g _ =>
    have hecho : ∀ t : State, t.BankSafe o → (t.echo f.ref.port g f.payload).From t o := fun t ht =>
      .of_only ht (t.echo_only _ _ _) (by decide) (by decide) (by decide)
    refine Upd.From.andThen ?_ hecho
    split
    · have hp := (h.1.settled_localPass u.space).frame (State.drawn_only _) (by decide) (by decide) (by decide)
      exact ⟨hp.1, fun _ _ => hp.2⟩
    · exact h.on State.drawn_only (by decide) (by decide) (by decide)

/-- R14, R15, R29: a transmission end, of the frame on the line. -/
theorem State.BankSettled.transmissionEnd {f : OwnFrame} (h : s.BankSettled (some f.ref)) (raw : RawResult) :
    (s.transmissionEnd f raw).BankSettled none := by
  have hover : s.frameOver.BankSettled (some f.ref) :=
    h.frame (t := s.frameOver) (s.putLine_only _) (by decide) (by decide) (by decide)
  have hsettled : (s.endSettled f raw).From s.frameOver none :=
    ((hover.1.settle raw).on (fun t => t.appendHealth_only raw) (by decide) (by decide) (by decide)).on
      (fun t => t.settleOutbound_only f raw) (by decide) (by decide) (by decide)
  have hechoed : (s.endEchoed f raw).From s.frameOver none := by
    unfold State.endEchoed
    split
    · exact hsettled.echo f
    · exact hsettled
  exact (hechoed.andThen fun _ ht => ht.leaveAtEnd).finish hover.2

/-! ## Round boundaries and turns -/

theorem mem_allRefs (r : Ref) : r ∈ allRefs := by
  obtain ⟨p, i⟩ := r
  revert p i
  decide

/-- R57, R61: the bank at a round boundary writes no record. -/
theorem Mailbox.atRoundBoundary_record (m : Mailbox) : m.atRoundBoundary.record = m.record := by
  unfold Mailbox.atRoundBoundary
  split <;> rfl

/-- R57, R61: of the states a round boundary changes HELD alone, to QUEUED. -/
theorem Mailbox.atRoundBoundary_state (m : Mailbox) :
    m.atRoundBoundary.state = if m.state = .held then .queued else m.state := by
  unfold Mailbox.atRoundBoundary
  split <;> rename_i h <;> simp [h]

theorem State.bankRoundBoundary_destination (s : State) (r : Ref) :
    s.bankRoundBoundary.destination r = s.destination r := by
  rw [State.destination, State.bankRoundBoundary_mailbox, Mailbox.atRoundBoundary_record, State.destination]

theorem State.bankRoundBoundary_blocked (s : State) (r : Ref) : s.bankRoundBoundary.blocked r = s.blocked r :=
  State.blocked_congr rfl (s.bankRoundBoundary_destination r) fun e _ => s.bankRoundBoundary_destination e

theorem State.BankSafe.bankRoundBoundary (h : s.BankSafe o) : s.bankRoundBoundary.BankSafe o := by
  have hst : ∀ q, (s.bankRoundBoundary.mailbox q).state
      = if (s.mailbox q).state = .held then .queued else (s.mailbox q).state := fun q => by
    rw [State.bankRoundBoundary_mailbox, Mailbox.atRoundBoundary_state]
  refine ⟨⟨h.1.nodup, fun q => ?_, fun q => ?_, fun q => ?_, fun q hq hne => ?_⟩, fun p => ⟨(h.2 p).1, fun i hi => ?_⟩⟩
  · refine (h.1.listed q).trans ?_
    rw [hst q]
    split
    next e => rw [e]; decide
    next => exact Iff.rfl
  · rw [hst q, ← h.1.onLine q]
    split
    next e => rw [e]; decide
    next => exact Iff.rfl
  · rw [State.bankRoundBoundary_mailbox]
    exact (h.1.sound q).atRoundBoundary
  · rw [State.bankRoundBoundary_blocked]
    refine h.1.order q hq fun e => hne ?_
    rw [hst q, e]
    rfl
  · rw [hst, (h.2 p).2 i hi]
    rfl

/-- R57, R84: where a boundary brings no hold-off of a LOCAL mailbox to 0, it frees none. -/
theorem State.BankSettled.bankRoundBoundary (h : s.BankSettled o) (he : allRefs.any s.holdOffEnds = false) :
    s.bankRoundBoundary.BankSettled o := by
  refine ⟨h.1.bankRoundBoundary, fun r hr hloc => ?_⟩
  rw [State.isLocal_congr (s := s) (by rw [State.bankRoundBoundary_mailbox, Mailbox.atRoundBoundary_record])] at hloc
  have hfree := h.2 r hr hloc
  have hends : s.holdOffEnds r = false := by simpa using (List.any_eq_false.1 he) r (mem_allRefs r)
  rw [← Bool.not_eq_true, State.free_iff] at hfree ⊢
  rw [State.bankRoundBoundary_blocked, State.bankRoundBoundary_mailbox]
  rintro ⟨hst, hhold, hblk⟩
  have hheld : (s.mailbox r).state ≠ .held := by
    obtain ⟨-, -, -, -, -, hrec⟩ := h.1.1.sound r
    intro e
    cases hm : (s.mailbox r).record with
    | none => simp [State.isLocal, State.kind, hm] at hloc
    | some rec => exact (hrec rec hm).2.2.2.2 (.inr (.inl e)) (by simpa [State.isLocal, State.kind, hm] using hloc)
  rw [Mailbox.atRoundBoundary_state, if_neg hheld] at hst
  have hne0 : (s.mailbox r).holdOff ≠ 0 := fun e => hfree ⟨hst, e, hblk⟩
  have hne1 : (s.mailbox r).holdOff ≠ 1 := fun e => by simp [State.holdOffEnds, hloc, hst, e] at hends
  simp only [Mailbox.atRoundBoundary, hst, beq_iff_eq, hne0, if_false] at hhold
  exact hne1 (by bv_omega)

/-- R7, R57, R61, R84: a round boundary. -/
theorem State.BankSettled.roundBoundary (h : s.BankSettled o) : s.roundBoundary.BankSettled o := by
  unfold State.roundBoundary
  simp only []
  refine State.BankSettled.frame ?_ (State.confinementRoundBoundary_only _) (by decide) (by decide) (by decide)
  split
  · exact h.1.bankRoundBoundary.settled_localPass false
  next he => exact h.bankRoundBoundary (by simpa using he)

theorem State.BankSettled.advanceTurn (h : s.BankSettled o) : s.advanceTurn.BankSettled o :=
  h.frame s.advanceTurn_only (by decide) (by decide) (by decide)

theorem State.BankSettled.putLine (h : s.BankSettled o) (l : LineUnit) : (s.putLine l).BankSettled o :=
  h.frame (s.putLine_only l) (by decide) (by decide) (by decide)

theorem State.BankSettled.slip (h : s.BankSettled o) (a : NodeAddr) : (s.slip a).BankSettled o := by
  have hseen : s.slipSeen.BankSettled o := h.frame s.slipSeen_only (by decide) (by decide) (by decide)
  rcases s.slip_cases a with ⟨-, -, e⟩ | ⟨-, e⟩
  · rw [e]
    exact State.BankSettled.putLine (State.BankSettled.roundBoundary (hseen.putLine _)) _
  · rw [e]
    exact hseen.putLine _

/-! ## The own turn -/

theorem State.lowestKey_mem (s : State) {l : List Ref} (h : s.lowestKey l = some r) : r ∈ l := by
  induction l generalizing r with
  | nil => cases h
  | cons a l ih =>
    simp only [State.lowestKey] at h
    split at h
    next b hb =>
      split at h
      · cases h
        exact List.mem_cons_of_mem a (ih hb)
      · cases h
        exact List.mem_cons_self
    next => cases h; exact List.mem_cons_self

/-- R79, R80: the chosen mailbox is on the pending list and eligible. -/
theorem State.choose_eligible {p : Port} (h : s.choose = some (r, p)) : r ∈ s.sched.refs ∧ s.eligible r = true := by
  have hmem : r ∈ s.eligibles := by
    unfold State.choose at h
    split at h
    · obtain ⟨a, ha, he⟩ := Option.map_eq_some_iff.1 h
      cases he
      exact s.lowestKey_mem ha
    · obtain ⟨q, -, hq⟩ := List.exists_of_findSome?_eq_some h
      obtain ⟨a, ha, he⟩ := Option.map_eq_some_iff.1 hq
      cases he
      unfold State.choiceOf at ha
      split at ha
      · exact List.mem_of_mem_filter (s.lowestKey_mem ha)
      · exact List.mem_of_mem_filter (List.mem_of_mem_head? ha)
  simpa [State.eligibles] using hmem

theorem State.eligible_kind (h : s.eligible r = true) : s.isLocal r = false ∧ s.free r = true := by
  simp only [State.eligible, Bool.and_eq_true, Bool.or_eq_true, beq_iff_eq] at h
  exact ⟨by rcases h.1 with e | e <;> simp [State.isLocal, e], h.2⟩

/-- R58: an eligible mailbox becomes SENDING. -/
theorem State.BankSettled.markSending (h : s.BankSettled none) (hr : s.eligible r = true) :
    (s.markSending r).BankSettled (some r) := by
  obtain ⟨hloc, hfree⟩ := State.eligible_kind hr
  obtain ⟨hst, -, hblk⟩ := (s.free_iff r).1 hfree
  have hp : (s.mailbox r).state.onPendingList = true := by rw [hst]; rfl
  have hab := (h.1.1.sound r).no_abort (by rw [hst]; decide)
  refine ⟨h.1.put hp rfl rfl ((h.1.1.sound r).moved hp rfl (by simp) fun rec hm => ?_) (.starts r) fun _ => hblk,
    h.2.write (s.putMailbox_writes r _) rfl (fun _ => rfl) (by simp)⟩
  obtain ⟨-, -, -, -, -, hrec⟩ := h.1.1.sound r
  have hlim := (hrec rec hm).2.2.1 (.inl hst)
  rw [Option.mem_def] at hm
  exact ⟨by omega, by simp, by simp, fun _ => by simpa [State.isLocal, State.kind, hm] using hloc⟩

/-- R78, R82: own turn begins, with no own frame in flight. -/
theorem State.BankSettled.ownTurnBegins (h : s.BankSettled none) (ho : s.line.own = none) :
    s.ownTurnBegins.BankSettled s.ownTurnBegins.ownRef := by
  have hstay : s.BankSettled s.ownRef := by rwa [State.ownRef, ho]
  unfold State.ownTurnBegins
  split
  · split
    next r p hc =>
      split
      next rec _ =>
        have hrot : (s.putRotation p).BankSettled none :=
          h.frame (s.putRotation_only p) (by decide) (by decide) (by decide)
        have hsend := hrot.markSending (r := r) (State.choose_eligible hc).2
        unfold State.handFrame
        simp only []
        split
        · exact (hsend.frame (State.useOutbound_only _ _ _) (by decide) (by decide) (by decide)).putLine _
        · exact hsend.putLine _
      next => exact hstay
    next => exact hstay
  · exact hstay

end Sys2Proof.Machine
end

section
/-! O59, row by row: the commands, the port reset, the rows of the line (R54 to R56, R63, R66, R69, R72, R84). -/

namespace Sys2Proof.Machine

variable {s t : State} {r : Ref} {o : Option Ref} {p : Port}

/-! ## The invariant between events -/

/-- R54, R66, R75, R76, R84: the bank is sound with the own frame in flight, and no LOCAL mailbox is free. -/
def State.MailSafe (s : State) : Prop := s.BankSettled s.ownRef

theorem State.MailSafe.of_settled (h : t.BankSettled s.ownRef) (ho : t.line.own = s.line.own) : t.MailSafe := by
  unfold State.MailSafe State.ownRef
  rw [ho]
  exact h

theorem State.MailSafe.frame {l : List Part} (h : s.MailSafe) (hf : s.OnlyChanges t l) (hb : Part.boxes ∉ l)
    (hr : Part.refs ∉ l) (hc : Part.completions ∉ l) (ho : t.line.own = s.line.own) : t.MailSafe :=
  .of_settled (State.BankSettled.frame h hf hb hr hc) ho

/-- Changes at the ports alone keep the invariant. -/
theorem mailSafe_of_ports (u v : State) (h : u.OnlyChanges v [.engines, .queues]) (hu : u.MailSafe) : v.MailSafe :=
  hu.frame h (by decide) (by decide) (by decide) (by rw [h.line (by decide)])

/-- The end of an event that leaves the line unit. -/
theorem State.MailSafe.finish {u : Upd} (h : s.MailSafe) (hu : u.From s s.ownRef) (ho : u.state.line = s.line) :
    u.finish.MailSafe :=
  .of_settled (hu.finish h.2) (by rw [u.finish_only.line (by decide), ho])

theorem State.MailSafe.localPass (h : s.BankSafe s.ownRef) (retry : Bool) : (s.localPass retry).MailSafe :=
  .of_settled (h.settled_localPass retry) (by rw [(s.localPass_only retry).line (by decide)])

/-! ## LOAD, CLEAR, REQUEST, ABORT, READ_COMPLETION -/

/-- R54: a mailbox off the pending list has no frame on the line. -/
theorem MailState.onLine_of_off {st : MailState} (h : st.onPendingList = false) : st.onLine = false := by
  revert h
  cases st <;> decide

/-- R55: LOAD is refused in the states of the pending list. -/
theorem MailState.refusesLoad_eq (st : MailState) : st.refusesLoad = st.onPendingList := by cases st <;> rfl

/-- R55, R69: a mailbox off the pending list is written, stays off it, and leaves its completion list. -/
theorem State.MailSafe.rewrite (h : s.MailSafe) (hp : (s.mailbox r).state.onPendingList = false) {m : Mailbox}
    (hm : m.Sound) (hmp : m.state.onPendingList = false) : ((s.putMailbox r m).dropCompletion r).MailSafe := by
  obtain ⟨⟨hl, hc⟩, hn⟩ := h
  have hr : r ∉ s.sched.refs := by rw [hl.listed r, hp]; decide
  have hq : m.state ≠ .queued := fun e => by rw [e] at hmp; cases hmp
  have hw : s.Writes ((s.putMailbox r m).dropCompletion r) r m := s.putMailbox_writes r m
  have ho := OnLineMoves.still (hl.not_sent (MailState.onLine_of_off hp))
  rw [← MailState.onLine_of_off hmp] at ho
  exact .of_settled ⟨⟨hl.write hw rfl (fun hm => absurd hm hr) (hmp.trans hp.symm) hm ho (fun hm => absurd hm hr),
    hc.drop hw fun q => State.dropCompletion_completions _ r q⟩,
    hn.write hw rfl (fun hm => absurd hm hr) hq⟩ rfl

/-- R52, R55: a record that LOAD accepts has at most 64 payload bytes. -/
theorem mailRecordOf_payload {kind dest chan gHi gLo key retry hold len : Byte} {payload : List Byte} {rec : MailRecord}
    (h : mailRecordOf kind dest chan gHi gLo key retry hold len payload = some rec) : rec.payload.length ≤ 64 := by
  have htake : len.toNat ≤ 64 → (payload.take len.toNat).length ≤ 64 := fun hl => (List.length_take_le _ _).trans hl
  unfold mailRecordOf at h
  repeat' split at h
  all_goals cases h
  all_goals exact htake ‹_›

/-- R55: a mailbox as LOAD leaves it. -/
theorem Mailbox.loaded_sound {rec : MailRecord} (h : rec.payload.length ≤ 64) :
    Mailbox.Sound { Mailbox.vacant with record := some rec, state := .loaded } :=
  ⟨by simp, by simp [Mailbox.vacant], by simp [Mailbox.vacant], by simp [Mailbox.vacant], by simp, fun rec' hr => by
    cases hr
    exact ⟨h, Nat.zero_le _, by simp, by simp, by simp⟩⟩

theorem loadBody_mailSafe (p : Port) (bytes : List Byte) (h : s.MailSafe) : (loadBody p bytes s).1.MailSafe := by
  unfold loadBody
  split
  · split
    · exact h
    · split
      · exact h
      · simp only []
        split
        · exact h
        next hst =>
          split
          next hrec =>
            rw [MailState.refusesLoad_eq, Bool.not_eq_true] at hst
            exact h.rewrite hst (Mailbox.loaded_sound (mailRecordOf_payload hrec)) rfl
          next => exact h
  · exact h

theorem clearBody_mailSafe (p : Port) (bytes : List Byte) (h : s.MailSafe) : (clearBody p bytes s).1.MailSafe := by
  unfold clearBody
  split
  · split
    · unfold clearChecks
      split
      case h_1 hst | h_2 hst => exact h.rewrite (by rw [hst]; rfl) Mailbox.vacant_sound rfl
      all_goals exact h
    · exact h
  · exact h

/-- R56: a mailbox as REQUEST leaves it. -/
theorem Mailbox.Sound.requested {m : Mailbox} (h : m.Sound) {rec : MailRecord} (hrec : m.record = some rec) :
    Mailbox.Sound { m with state := .queued, outcome := none, cause := none, attempts := 0, lateAbort := false,
                           abortPending := false, holdOff := rec.holdOffRounds } := by
  obtain ⟨-, -, -, -, -, hr⟩ := h
  exact ⟨by simp [hrec], by simp, by simp, by simp, by simp, fun rec' hm =>
    ⟨(hr rec' hm).1, Nat.zero_le _, fun _ => Nat.zero_le _, by simp, by simp⟩⟩

/-- R56: what REQUEST writes before any local pass. -/
theorem State.enqueue_writes (s : State) (r : Ref) (rec : MailRecord) :
    s.Writes (s.enqueue r rec) r
      { s.mailbox r with state := .queued, outcome := none, cause := none, attempts := 0, lateAbort := false,
                         abortPending := false, holdOff := rec.holdOffRounds } :=
  fun q => s.putMailbox_mailbox r q _

theorem State.enqueue_refs (s : State) (r : Ref) (rec : MailRecord) :
    (s.enqueue r rec).sched.refs = s.sched.refs ++ [r] := rfl

theorem State.enqueue_completions (s : State) (r : Ref) (rec : MailRecord) (q : Port) :
    (s.enqueue r rec).completions q
      = if q = r.port then (s.completions r.port).filter (· != r.index) else s.completions q :=
  State.dropCompletion_completions (s.putMailbox r _) r q

theorem State.BankSafe.enqueue (h : s.BankSafe o) (hp : (s.mailbox r).state.onPendingList = false) {rec : MailRecord}
    (hrec : (s.mailbox r).record = some rec) : (s.enqueue r rec).BankSafe o := by
  have hr : r ∉ s.sched.refs := by rw [h.1.listed r, hp]; decide
  exact ⟨h.1.join (s.enqueue_writes r rec) rfl hr rfl ((h.1.sound r).requested hrec) (h.1.not_sent (MailState.onLine_of_off hp)),
    h.2.drop (s.enqueue_writes r rec) (s.enqueue_completions r rec)⟩

/-- R76: what is put at the end of the pending list blocks nothing before it. -/
theorem State.enqueue_blocked (rec : MailRecord) {q : Ref} (hr : r ∉ s.sched.refs) (hq : q ∈ s.sched.refs) :
    (s.enqueue r rec).blocked q = s.blocked q := by
  have hne : ∀ e ∈ s.sched.refs, e ≠ r := fun e he h => hr (h ▸ he)
  have hd : ∀ e ∈ s.sched.refs, (s.enqueue r rec).destination e = s.destination e := fun e he =>
    State.destination_congr ((s.enqueue_writes r rec).other (hne e he))
  exact State.blocked_congr (by rw [State.earlier, State.enqueue_refs, takeWhile_append_of_mem hq, State.earlier]) (hd q hq)
    fun e he => hd e (State.mem_earlier he).1

/-- R84: a REQUEST leaves the LOCAL mailboxes that stand on the pending list as they are. -/
theorem State.NoEligibleLocal.enqueue_listed (h : s.NoEligibleLocal) (rec : MailRecord) (hr : r ∉ s.sched.refs) {q : Ref}
    (hq : q ∈ s.sched.refs) (hloc : (s.enqueue r rec).isLocal q = true) : (s.enqueue r rec).free q = false := by
  have hqr : q ≠ r := fun e => hr (e ▸ hq)
  rw [State.isLocal_congr (s := s) (by rw [(s.enqueue_writes r rec).other hqr])] at hloc
  have := h q hq hloc
  simpa only [State.free, (s.enqueue_writes r rec).other hqr, State.enqueue_blocked rec hr hq] using this

theorem State.NoEligibleLocal.enqueue (h : s.NoEligibleLocal) (rec : MailRecord) (hr : r ∉ s.sched.refs)
    (hself : (s.enqueue r rec).isLocal r = true → (s.enqueue r rec).free r = false) :
    (s.enqueue r rec).NoEligibleLocal := by
  intro q hq hloc
  rw [State.enqueue_refs, List.mem_append, List.mem_singleton] at hq
  rcases hq with hq | rfl
  · exact h.enqueue_listed rec hr hq hloc
  · exact hself hloc

theorem State.MailSafe.requestMailbox (h : s.MailSafe) (hp : (s.mailbox r).state.onPendingList = false)
    {rec : MailRecord} (hrec : (s.mailbox r).record = some rec) : (s.requestMailbox r rec).MailSafe := by
  have hq := h.1.enqueue hp hrec
  unfold State.requestMailbox
  split
  · exact .localPass hq false
  next hk =>
    have hr : r ∉ s.sched.refs := by rw [h.1.1.listed r, hp]; decide
    refine .of_settled (s := s) ⟨hq, h.2.enqueue rec hr fun hl => ?_⟩ rfl
    rw [State.isLocal, State.kind, (s.enqueue_writes r rec).self, hrec] at hl
    exact absurd (by simpa using hl) hk

theorem requestBody_mailSafe (p : Port) (bytes : List Byte) (h : s.MailSafe) : (requestBody p bytes s).1.MailSafe := by
  have hcheck : ∀ r rec, (s.mailbox r).state.onPendingList = false → (s.mailbox r).record = some rec →
      (if rec.kind != .localHandOff && s.member.lineState == .offline then (s, Result.offline)
        else if rec.kind == .remote && rec.dest == s.member.config.nodeAddress then (s, .badArgument)
        else (s.requestMailbox r rec, .ok)).1.MailSafe := by
    intro r rec hp hrec
    split
    · exact h
    · split
      · exact h
      · exact h.requestMailbox hp hrec
  unfold requestBody
  split
  · split
    · unfold requestChecks
      split
      next hst hrec => exact hcheck _ _ (by rw [hst]; rfl) hrec
      next hst hrec => exact hcheck _ _ (by rw [hst]; rfl) hrec
      next => exact h
    · exact h
  · exact h

/-- R63: a waiting mailbox is given up. -/
theorem State.MailSafe.giveUp (h : s.MailSafe)
    (hst : (s.mailbox r).state = .queued ∨ (s.mailbox r).state = .held ∨ (s.mailbox r).state = .waitingSpace) :
    (s.completeUpd r .aborted none).finish.MailSafe :=
  h.finish (.of_removed (h.1.complete_waiting hst (by decide)) rfl) rfl

/-- R63: a SENDING mailbox gets abort-pending. -/
theorem State.MailSafe.markAbort (h : s.MailSafe) (hst : (s.mailbox r).state = .sending) :
    (s.putMailbox r { s.mailbox r with abortPending := true }).MailSafe := by
  have hp : (s.mailbox r).state.onPendingList = true := by rw [hst]; rfl
  have hq : (s.mailbox r).state ≠ .queued := by rw [hst]; decide
  obtain ⟨-, -, -, -, -, hr⟩ := h.1.1.sound r
  exact .of_settled ⟨h.1.put hp (m := { s.mailbox r with abortPending := true }) rfl hp
    ((h.1.1.sound r).moved hp hp (fun _ => hst) fun rec hm => (hr rec hm).2) (h.1.1.onLine_same rfl)
    fun _ => h.1.1.not_blocked hp hq, h.2.write (s.putMailbox_writes r _) rfl (fun _ => rfl) hq⟩ rfl

theorem abortBody_mailSafe (p : Port) (bytes : List Byte) (h : s.MailSafe) : (abortBody p bytes s).1.MailSafe := by
  unfold abortBody
  split
  · split
    · unfold abortChecks
      split
      next hst => exact h.giveUp (.inl hst)
      next hst => exact h.giveUp (.inr (.inl hst))
      next hst => exact h.giveUp (.inr (.inr hst))
      next hst => exact h.markAbort hst
      all_goals exact h
    · exact h
  · exact h

/-- R67: an entry leaves a completion list. -/
theorem State.MailSafe.dropCompletion (h : s.MailSafe) (r : Ref) : (s.dropCompletion r).MailSafe := by
  refine .of_settled ⟨⟨h.1.1.frame (s.dropCompletion_only r) (by decide) (by decide), ?_⟩,
    h.2.frame (s.dropCompletion_only r) (by decide) (by decide)⟩ rfl
  exact h.1.2.drop (m := s.mailbox r) (fun q => by split <;> simp_all [State.dropCompletion])
    fun q => State.dropCompletion_completions s r q

/-! ## Queues -/

theorem setQueueBody_mailSafe (p : Port) (bytes : List Byte) (h : s.MailSafe) : (setQueueBody p bytes s).1.MailSafe := by
  unfold setQueueBody
  split
  · split
    · split
      · exact h
      · split
        · exact h
        · simp only []
          have hset : ∀ c x, (s.setQueue p c x).MailSafe := fun c x =>
            h.frame (s.putQueue_only p _) (by decide) (by decide) (by decide) rfl
          split
          · exact .localPass (hset _ _).1 true
          · exact hset _ _
    · exact h
  · exact h

theorem State.MailSafe.removeHead (h : s.MailSafe) (p : Port) : (s.removeHead p).finish.MailSafe :=
  h.finish (.of_only h.1 (s.removeHead_only p) (by decide) (by decide) (by decide)) ((s.removeHead_only p).line (by decide))

theorem releaseBody_mailSafe (p : Port) (bytes : List Byte) (h : s.MailSafe) : (releaseBody p bytes s).1.MailSafe := by
  unfold releaseBody
  split
  · split
    · exact h
    · exact h.removeHead p
  · exact h

/-! ## Votes and port reset -/

/-- New votes leave the own frame. -/
theorem State.applyVotes_own (s : State) (v : Vector Vote 3) : (s.applyVotes v).state.line.own = s.line.own := by
  rw [s.applyVotes_line]
  exact ((s.putVotes v).moveLineState_sameCounts _).2.2.1

theorem voteBody_mailSafe (p : Port) (bytes : List Byte) (h : s.MailSafe) : (voteBody p bytes s).1.MailSafe := by
  unfold voteBody
  split
  · split
    · split
      · exact h
      next v _ _ =>
        have hv := h.1.applyVotes (s.member.votes.set p v)
        refine .of_settled (hv.finish h.2) ?_
        rw [(Upd.finish_only _).line (by decide), s.applyVotes_own]
    · exact h
  · exact h

/-- R72: what a port reset does to one mailbox. -/
theorem State.ListsSafe.resetMailbox (h : s.ListsSafe o) (r : Ref) : (s.resetMailbox r).state.ListsSafe o := by
  have hvac : (s.mailbox r).state.onLine = false → (s.vacate r).ListsSafe o := fun hn => h.vacate (.still (h.not_sent hn))
  unfold State.resetMailbox
  split
  next hst =>
    have hp : (s.mailbox r).state.onPendingList = true := by rw [hst]; rfl
    obtain ⟨-, -, -, -, -, hr⟩ := h.sound r
    refine h.write (s.putMailbox_writes r _) rfl (fun _ => rfl) hp.symm ((h.sound r).moved hp rfl (by simp) fun rec hm => ?_)
      (h.onLine_same (by rw [hst]; rfl)) fun _ _ => h.not_blocked hp (by rw [hst]; decide)
    obtain ⟨-, hatt, -, -, hkind⟩ := hr rec hm
    exact ⟨hatt, by simp, by simp, fun _ => hkind (.inl hst)⟩
  next => exact h
  all_goals
    next hst => exact hvac (by rw [hst]; rfl)

theorem State.resetMailbox_other {q : Ref} (s : State) (h : q ≠ r) : (s.resetMailbox r).state.mailbox q = s.mailbox q := by
  unfold State.resetMailbox
  split
  · exact (s.putMailbox_writes r _).other h
  · rfl
  all_goals exact (s.vacate_writes r).other h

/-- R72: a port reset at the mailbox bank. -/
theorem State.BankSafe.resetMailboxes (h : s.BankSafe o) (p : Port) : (s.resetMailboxes p).state.BankSafe o := by
  have hloop := Upd.each_inv (fun t => t.ListsSafe o ∧ (∀ q : Ref, q.port ≠ p → t.mailbox q = s.mailbox q)
      ∧ ∀ q, t.completions q = s.completions q) allIndices (fun i t => t.resetMailbox { port := p, index := i })
    (fun i _ t ⟨hl, hm, hc⟩ => ⟨hl.resetMailbox _, fun q hq => (t.resetMailbox_other (by rintro rfl; exact hq rfl)).trans (hm q hq),
      fun q => ((t.resetMailbox_only _).completions (by decide) q).trans (hc q)⟩)
    (Upd.start s) ⟨h.1, fun _ _ => rfl, fun _ => rfl⟩
  obtain ⟨hl, hm, hc⟩ := hloop
  refine ⟨hl.frame (State.putCompletions_only _ p []) (by decide) (by decide), fun q => ?_⟩
  simp only [State.resetMailboxes, Upd.on_parts, State.putCompletions_completions, (State.putCompletions_views _ _ _).2.2.1]
  split
  · exact ⟨List.nodup_nil, fun i hi => by cases hi⟩
  next hq =>
    rw [hc q]
    exact ⟨(h.2 q).1, fun i hi => by rw [hm ⟨q, i⟩ hq]; exact (h.2 q).2 i hi⟩

theorem State.BankSafe.portCleared (h : s.BankSafe o) (p : Port) : (s.portCleared p).state.BankSafe o := by
  have hengine : (s.putEngine p (s.engine p).portReset).BankSafe o :=
    h.frame (s.putEngine_only p _) (by decide) (by decide) (by decide)
  have hboxes := hengine.resetMailboxes p
  unfold State.portCleared
  simp only [Upd.on_parts, Upd.andThen_parts]
  have hchan := (hboxes.frame (State.closeChannels_only _ p) (by decide) (by decide) (by decide)).frame
    (State.freeEntries_only _ p) (by decide) (by decide) (by decide)
  exact (hchan.frame (State.emptyQueue_only _ p) (by decide) (by decide) (by decide)).frame
    (State.putOrder_only _ p .key) (by decide) (by decide) (by decide)

theorem State.MailSafe.portReset (h : s.MailSafe) (p : Port) : (s.portReset p).MailSafe := by
  have hc := State.BankSafe.portCleared h.1 p
  have hline : (s.portCleared p).state.line = s.line := (s.portCleared_only p).line (by decide)
  have hpass := (hc.applyVotes ((s.portCleared p).state.member.votes.set p .none)).1.settled_localPass true
  rw [State.portReset_eq, (Upd.andThen_parts _ _).1]
  refine .of_settled hpass ?_
  rw [(State.localPass_only _ true).line (by decide), State.applyVotes_own, hline]

theorem resetPortBody_mailSafe (p : Port) (bytes : List Byte) (h : s.MailSafe) : (resetPortBody p bytes s).1.MailSafe := by
  cases bytes with
  | nil => exact h
  | cons b bytes =>
    simp only [resetPortBody]
    exact h.portReset p

theorem execPortReset_mailSafe (p : Port) (h : s.MailSafe) : AnswerAll State.MailSafe (execPortReset p s) := by
  unfold execPortReset
  split
  · exact answerAll_next h
  · have hpin : (s.setPrst p true).MailSafe := mailSafe_of_ports _ _ ((s.putEngine_only p _).mono (by decide)) h
    exact answerAll_next (hpin.portReset p)

theorem State.MailSafe.deviceReset (s : State) : s.deviceReset.MailSafe := by
  obtain ⟨hb, hord⟩ : State.reset.BankSound ∧ State.reset.OrderSound :=
    ⟨State.reset_bankSound, fun r h => absurd h (by simp [State.reset])⟩
  have hs : State.reset.BankSettled State.reset.ownRef :=
    ⟨(State.bankSafe_iff _).2 ⟨hb, hord⟩, fun r h => absurd h (by simp [State.reset])⟩
  exact State.BankSettled.congr hs (fun _ => rfl) rfl (fun _ => rfl)

/-! ## Rows of the line -/

theorem State.MailSafe.roundBoundary (h : s.MailSafe) : s.roundBoundary.MailSafe :=
  .of_settled (State.BankSettled.roundBoundary h) (by rw [s.roundBoundary_line])

theorem State.MailSafe.slip (h : s.MailSafe) (a : NodeAddr) : (s.slip a).MailSafe :=
  .of_settled (State.BankSettled.slip h a) (by rw [s.slip_line])

/-- R78: own turn begins, with no own frame in flight. -/
theorem State.MailSafe.ownTurnBegins (h : s.MailSafe) (ho : s.line.own = none) : s.ownTurnBegins.MailSafe := by
  have hn : s.BankSettled none := by simpa [State.MailSafe, State.ownRef, ho] using h
  exact hn.ownTurnBegins ho

theorem State.MailSafe.advanceTurn (h : s.MailSafe) : s.advanceTurn.MailSafe :=
  .of_settled (State.BankSettled.advanceTurn h) (by rw [s.advanceTurn_line])

theorem State.MailSafe.drawn (h : s.MailSafe) : s.drawn.MailSafe :=
  h.frame s.drawn_only (by decide) (by decide) (by decide) rfl

theorem State.MailSafe.beginTurnIdle (h : s.MailSafe) (ho : s.line.own = none) : s.beginTurnIdle.MailSafe := by
  have hturn := h.advanceTurn
  have hown : s.advanceTurn.line.own = none := by rw [s.advanceTurn_line]; exact ho
  unfold State.beginTurnIdle
  simp only []
  split
  · split
    · exact hturn.drawn.roundBoundary.ownTurnBegins (by rw [State.roundBoundary_line]; exact hown)
    · exact (hturn.drawn.ownTurnBegins hown).roundBoundary
  · split
    · exact hturn.roundBoundary
    · split
      · exact hturn.ownTurnBegins hown
      · exact hturn

theorem State.MailSafe.firstTurnBegins (h : s.MailSafe) (ho : s.line.own = none) : s.firstTurnBegins.MailSafe := by
  have hfirst : s.startFirstTurn.MailSafe := h.frame s.startFirstTurn_only (by decide) (by decide) (by decide) rfl
  unfold State.firstTurnBegins
  simp only []
  split
  · exact hfirst.ownTurnBegins ho
  · exact hfirst

/-- R19: on an idle line no own frame is in flight. -/
theorem State.LineSound.own_none (h : s.LineSound) (ha : s.line.activity = .idle) : s.line.own = none := by
  obtain ⟨-, -, hs, -⟩ := h
  by_contra hn
  have := hs (by simpa [State.inFlight, Option.isSome_iff_ne_none] using hn)
  simp [Activity.sendsOwn, ha] at this

theorem execTurnBegins_mailSafe (h : s.MailSafe) (hl : s.LineSound) : AnswerAll State.MailSafe (execTurnBegins s) := by
  unfold execTurnBegins
  split
  next hc =>
    simp only [Bool.and_eq_true, beq_iff_eq] at hc
    have ho := State.LineSound.own_none hl hc.2
    refine answerAll_next ?_
    split
    · exact h.firstTurnBegins ho
    · exact h.beginTurnIdle ho
  next => exact answerAll_next h

theorem execSyncIdleCount_mailSafe (h : s.MailSafe) (hl : s.LineSound) :
    AnswerAll State.MailSafe (execSyncIdleCount s) := by
  unfold execSyncIdleCount
  split
  next hc =>
    simp only [Bool.and_eq_true, beq_iff_eq] at hc
    have ho := State.LineSound.own_none hl hc.2
    have hline := s.syncByIdle_line
    have hsync : s.syncByIdle.MailSafe :=
      h.frame s.syncByIdle_only (by decide) (by decide) (by decide) (by rw [hline])
    refine answerAll_next ?_
    split
    · exact hsync
    · exact hsync.firstTurnBegins (by rw [hline]; exact ho)
  next => exact answerAll_next h

theorem State.MailSafe.turnAtActivity (h : s.MailSafe) : s.turnAtActivity.MailSafe := by
  unfold State.turnAtActivity State.beginTurnBusy
  split
  · exact h.frame s.startFirstTurn_only (by decide) (by decide) (by decide) rfl
  · split
    · split
      · exact h.advanceTurn.roundBoundary
      · exact h.advanceTurn
    · exact h

theorem execActivityBegins_mailSafe (h : s.MailSafe) : AnswerAll State.MailSafe (execActivityBegins s) := by
  unfold execActivityBegins
  split
  · exact answerAll_next (h.turnAtActivity.frame (State.beginReception_only _ []) (by decide) (by decide) (by decide) rfl)
  · exact answerAll_next h

theorem State.MailSafe.headerZero (h : s.MailSafe) (pre h0 : RxChar) : (s.headerZero pre h0).MailSafe := by
  have hown := (s.headerZero_line_keeps pre h0).2.1
  refine .of_settled (s := s) ?_ hown
  unfold State.headerZero
  simp only []
  split
  · exact State.BankSettled.putLine h _
  · split
    · exact (State.BankSettled.slip h _).putLine _
    · split
      · exact (State.BankSettled.slip h _).frame (State.frameStart_only _ _) (by decide) (by decide) (by decide)
      · exact State.BankSettled.frame h (State.frameStart_only _ _) (by decide) (by decide) (by decide)

theorem execTurnCheck_mailSafe (chars : List RxChar) (h : s.MailSafe) :
    AnswerAll State.MailSafe (execTurnCheck chars s) := by
  unfold execTurnCheck
  split
  · split
    · exact answerAll_next (h.headerZero _ _)
    · exact answerAll_next h
  · exact answerAll_next h

theorem State.MailSafe.receptionEnd (h : s.MailSafe) (rx : Reception) (v : Classified)
    (ha : s.line.activity = .receiving) : (s.receptionEnd rx v).MailSafe := by
  have hcount : (s.receptionCounted v).BankSettled s.ownRef :=
    State.BankSettled.frame h (s.receptionCounted_only v) (by decide) (by decide) (by decide)
  have hover : (((s.receptionDecided rx v).andThen State.endReceptionSlot).on (fun s => s.afterReceptionEnd v rx)).From
      (s.receptionCounted v) s.ownRef := by
    refine ((Upd.From.of_only hcount.1 (s.receptionDecided_only rx v) (by decide) (by decide) (by decide)).andThen
      fun t ht => ?_).on (fun t => t.afterReceptionEnd_only v rx) (by decide) (by decide) (by decide)
    exact .of_only ht t.endReceptionSlot_only (by decide) (by decide) (by decide)
  refine .of_settled ?_ (s.receptionEnd_drive rx v ha).2.1
  rw [State.receptionEnd_eq]
  exact hover.finish hcount.2

theorem execReceptionEnd_mailSafe (rest : List RxChar) (h : s.MailSafe) :
    AnswerAll State.MailSafe (execReceptionEnd rest s) := by
  unfold execReceptionEnd
  split
  next ha _ =>
    simp only []
    split
    · exact answerAll_next (h.receptionEnd _ _ ha)
    · exact answerAll_next h
  · exact answerAll_next h

/-- R15: after the end of an own frame none is in flight. -/
theorem State.transmissionEnd_own (s : State) (f : OwnFrame) (raw : RawResult) :
    (s.transmissionEnd f raw).line.own = none := by
  by_cases hl : s.member.lineState = .leaving
  · rw [(s.transmissionEnd_line_leave f raw hl).1]
    rfl
  · rw [(s.transmissionEnd_line_stay f raw hl).1]
    rfl

theorem State.MailSafe.transmissionEnd (h : s.MailSafe) {f : OwnFrame} (ho : s.line.own = some f) (raw : RawResult) :
    (s.transmissionEnd f raw).MailSafe := by
  have hf : s.BankSettled (some f.ref) := by simpa [State.MailSafe, State.ownRef, ho] using h
  have := hf.transmissionEnd raw
  rwa [State.MailSafe, State.ownRef, State.transmissionEnd_own]

theorem State.MailSafe.endLineTime (h : s.MailSafe) : s.endLineTime.MailSafe :=
  h.frame s.endLineTime_only (by decide) (by decide) (by decide) rfl

theorem State.MailSafe.receiveAfterCollision (h : s.MailSafe) (f : OwnFrame) (k : Nat) (c : RxChar) :
    (s.receiveAfterCollision f k c).MailSafe := by
  have hon : (s.receivedOn (collisionChars f k c)).MailSafe :=
    h.frame (s.receivedOn_only _) (by decide) (by decide) (by decide) rfl
  rcases s.receiveAfterCollision_cases f k c with ⟨-, e⟩ | ⟨pre, h0, -, e⟩ | ⟨-, -, e⟩
  · rw [e]
    exact hon
  · rw [e]
    exact hon.headerZero pre h0
  · rw [e]
    exact (hon.slip _).frame (State.follow_only _ _ _) (by decide) (by decide) (by decide) rfl

theorem execCollision_mailSafe (k : Nat) (c : RxChar) (h : s.MailSafe) :
    AnswerAll State.MailSafe (execCollision k c s) := by
  unfold execCollision
  split
  next ho =>
    split
    · split
      · refine answerAll_next ?_
        split
        · exact (h.transmissionEnd ho _).receiveAfterCollision _ k c
        · exact h.transmissionEnd ho _
      · exact answerAll_next h
    · exact answerAll_next h
  · exact answerAll_next h

theorem execCheckWordReadBack_mailSafe (h : s.MailSafe) : AnswerAll State.MailSafe (execCheckWordReadBack s) := by
  unfold execCheckWordReadBack
  split
  next ho =>
    split
    · exact answerAll_next (h.transmissionEnd ho _).endLineTime
    · exact answerAll_next (h.frame (s.putLine_only _) (by decide) (by decide) (by decide) rfl)
  · exact answerAll_next h

theorem execTransmissionEnd_mailSafe (reply : Option RxChar) (h : s.MailSafe) :
    AnswerAll State.MailSafe (execTransmissionEnd reply s) := by
  unfold execTransmissionEnd
  split
  next ho => exact answerAll_next (h.transmissionEnd ho _).endLineTime
  · exact answerAll_next h

/-! ## Every row -/

/-- Rows that write of the line unit other fields than the own frame. -/
theorem execReplyByteStart_own : AnswerAll (fun t => t.line.own = s.line.own) (execReplyByteStart s) := by
  unfold execReplyByteStart
  split <;> exact answerAll_next rfl

theorem execReplyByteEnd_own : AnswerAll (fun t => t.line.own = s.line.own) (execReplyByteEnd s) := by
  unfold execReplyByteEnd
  split <;> exact answerAll_next rfl

theorem execLineTimeEnd_own : AnswerAll (fun t => t.line.own = s.line.own) (execLineTimeEnd s) := by
  unfold execLineTimeEnd
  split
  · split <;> exact answerAll_next rfl
  · exact answerAll_next rfl

theorem execSyncEntryIdleSeen_own : AnswerAll (fun t => t.line.own = s.line.own) (execSyncEntryIdleSeen s) := by
  unfold execSyncEntryIdleSeen
  split <;> exact answerAll_next rfl

/-- A row that writes the line unit alone, and not its own frame. -/
theorem State.MailSafe.answers_line (h : s.MailSafe) {a : Answer} (ha : s.AnswersWith [.line] a)
    (ho : AnswerAll (fun t => t.line.own = s.line.own) a) : AnswerAll State.MailSafe a :=
  fun t ht => h.frame (ha t ht) (by decide) (by decide) (by decide) (ho t ht)

/-- The release of a command whose body keeps the invariant. -/
theorem takeCommand_mailSafe (p : Port) (c : Command) (body : State → State × Result)
    (hb : ∀ u : State, u.MailSafe → (body u).1.MailSafe) (h : s.MailSafe) :
    AnswerAll State.MailSafe (.next (s.takeCommand p c body)) :=
  answerAll_next (State.takeCode_keeps mailSafe_of_ports p c.code body hb h)

/-- The release of a read command whose effect keeps the invariant. -/
theorem takeRead_mailSafe (p : Port) (cmd : ReadCommand) (k : Nat) (effect : SideEffect → State → State)
    (he : ∀ (e : SideEffect) (u : State), u.MailSafe → (effect e u).MailSafe) (h : s.MailSafe) :
    AnswerAll State.MailSafe (.next (s.takeRead p cmd k effect)) :=
  answerAll_next (State.takeRead_keeps mailSafe_of_ports p cmd k effect he h)

theorem reduceCounters_mailSafe (e : SideEffect) (h : s.MailSafe) : (reduceCounters e s).MailSafe := by
  refine h.frame (reduceCounters_only s e) (by decide) (by decide) (by decide) ?_
  cases e <;> rfl

theorem dropReported_mailSafe (p : Port) (e : SideEffect) (h : s.MailSafe) : (dropReported p e s).MailSafe := by
  cases e with
  | dropCompletion i => exact h.dropCompletion _
  | none | reduce => exact h

/-- The parts of the state on which the invariant rests. -/
def Part.ofBank (k : Part) : Prop := k = .boxes ∨ k = .refs ∨ k = .completions ∨ k = .line

/-- R54, R66, R75, R76, R84: every row keeps mailboxes, lists and own frame in agreement. -/
theorem exec_mailSafe (c : Instr) (h : s.MailSafe) (hl : s.LineSound) : AnswerAll State.MailSafe (exec c s) := by
  by_cases hrow : ∃ k ∈ rowParts c, k.ofBank
  · cases c
    case deviceReset => exact answerAll_next (.deviceReset s)
    case portReset p => exact execPortReset_mailSafe p h
    case vote p bytes => exact takeCommand_mailSafe p .vote _ (fun _ hu => voteBody_mailSafe p bytes hu) h
    case resetPort p bytes => exact takeCommand_mailSafe p .resetPort _ (fun _ hu => resetPortBody_mailSafe p bytes hu) h
    case load p bytes => exact takeCommand_mailSafe p .load _ (fun _ hu => loadBody_mailSafe p bytes hu) h
    case clear p bytes => exact takeCommand_mailSafe p .clear _ (fun _ hu => clearBody_mailSafe p bytes hu) h
    case request p bytes => exact takeCommand_mailSafe p .request _ (fun _ hu => requestBody_mailSafe p bytes hu) h
    case abort p bytes => exact takeCommand_mailSafe p .abort _ (fun _ hu => abortBody_mailSafe p bytes hu) h
    case setQueue p bytes => exact takeCommand_mailSafe p .setQueue _ (fun _ hu => setQueueBody_mailSafe p bytes hu) h
    case release p bytes => exact takeCommand_mailSafe p .release _ (fun _ hu => releaseBody_mailSafe p bytes hu) h
    case take p k => exact takeRead_mailSafe p .take k _ (fun _ _ hu => hu.removeHead p) h
    case readLine p k => exact takeRead_mailSafe p .line k _ (fun e _ hu => reduceCounters_mailSafe e hu) h
    case readCompletion p k => exact takeRead_mailSafe p .completion k _ (fun e _ hu => dropReported_mailSafe p e hu) h
    case turnBegins => exact execTurnBegins_mailSafe h hl
    case activityBegins => exact execActivityBegins_mailSafe h
    case turnCheck chars => exact execTurnCheck_mailSafe chars h
    case receptionEnd rest => exact execReceptionEnd_mailSafe rest h
    case collision k c => exact execCollision_mailSafe k c h
    case checkWordReadBack => exact execCheckWordReadBack_mailSafe h
    case transmissionEnd reply => exact execTransmissionEnd_mailSafe reply h
    case syncIdleCount => exact execSyncIdleCount_mailSafe h hl
    case replyByteStart => exact h.answers_line (execReplyByteStart_only s) execReplyByteStart_own
    case replyByteEnd => exact h.answers_line (execReplyByteEnd_only s) execReplyByteEnd_own
    case lineTimeEnd => exact h.answers_line (execLineTimeEnd_only s) execLineTimeEnd_own
    case syncEntryIdleSeen => exact h.answers_line (execSyncEntryIdleSeen_only s) execSyncEntryIdleSeen_own
    all_goals simp [rowParts, Part.ofBank] at hrow
  · have hout : ∀ k : Part, k.ofBank → k ∉ rowParts c := fun k hk hm => hrow ⟨k, hm, hk⟩
    intro t ht
    have hf := exec_only s c t ht
    exact h.frame hf (hout _ (.inl rfl)) (hout _ (.inr (.inl rfl))) (hout _ (.inr (.inr (.inl rfl))))
      (by rw [hf.line (hout _ (.inr (.inr (.inr rfl))))])

/-- Settles O59: a step is the row of the front command, or idles, and every row keeps the invariant. -/
theorem stepKeepsBankSound : Obligations.StepKeepsBankSound := by
  intro s t hline hbank hlocal horder hstep
  have key : t.MailSafe := by
    have hs : s.MailSafe := ⟨s.bankSafe_iff.2 ⟨hbank, horder⟩, hlocal⟩
    unfold step at hstep
    split at hstep
    · cases hstep
      exact hs
    next c rest _ =>
      have hq : State.MailSafe { s with pending := rest } := State.BankSettled.congr hs (fun _ => rfl) rfl (fun _ => rfl)
      exact exec_mailSafe c hq hline t hstep
  obtain ⟨hb, ho⟩ := t.bankSafe_iff.1 key.1
  exact ⟨hb, key.2, ho⟩

end Sys2Proof.Machine
end

section
/-! O16, O22, O23, O27: which mailboxes are withdrawable and eligible (R71, R77), LOAD (R55), the refusals of REQUEST (R56),
and CLEAR (R69). -/

namespace Sys2Proof.Machine

variable {s : State} {p : Port} {k : MailboxIndex} {r : Ref}

/-! ## Withdrawable and eligible -/

theorem State.withdrawable_iff (s : State) (r : Ref) :
    s.withdrawable r = true
      ↔ (s.kind r = some .remote ∨ s.kind r = some .group)
        ∧ ((s.mailbox r).state = .queued ∨ (s.mailbox r).state = .held) := by
  simp [State.withdrawable]

theorem State.eligible_iff (s : State) (r : Ref) :
    s.eligible r = true ↔ (s.kind r = some .remote ∨ s.kind r = some .group) ∧ s.free r = true := by
  simp [State.eligible]

/-- Settles O16, by what is free (R77) and what is blocked (R76). -/
theorem withdrawableAndEligibleExactly : Obligations.WithdrawableAndEligibleExactly := by
  intro s r
  have hearl : s.sched.refs.takeWhile (· ≠ r) = s.earlier r := by
    unfold State.earlier
    congr 1
    funext e
    simp only [ne_eq, decide_not, bne, beq_eq_decide]
  refine ⟨s.withdrawable_iff r, ?_⟩
  rw [s.eligible_iff, s.free_iff, hearl, ← s.blocked_iff, Bool.not_eq_true]

/-! ## Commands that answer at once -/

/-- R156: a command whose body gives `u` and `x`, and touches neither engines nor queues. -/
theorem State.takeCommand_taken (c : Command) {body : State → State × Result} {u : State} {x : Result} {l : List Part}
    (h : s.InTransaction p) (hb : body (s.closeTransaction p) = (u, x)) (hf : (s.closeTransaction p).OnlyChanges u l)
    (he : .engines ∉ l) (hq : .queues ∉ l) :
    s.takeCommand p c body = u.report p x ∧ s.Answered (s.takeCommand p c body) p x l := by
  have e := s.takeCommand_eq p c body h
  have ha := s.takeCommand_answered p c body l h (by rw [hb]; exact hf) he hq
  rw [hb] at e ha
  exact ⟨e, ha⟩

theorem toNat_ofNat_index (k : MailboxIndex) : (BitVec.ofNat 8 k.val).toNat = k.val := by
  simp only [BitVec.toNat_ofNat]
  omega

/-! ## LOAD -/

/-- A field read from a byte that holds its value. -/
theorem setWidth_of_toNat {w v : Nat} {x : BitVec w} {y : BitVec v} (h : x.toNat = y.toNat) : x.setWidth v = y :=
  BitVec.eq_of_toNat_eq (by rw [BitVec.toNat_setWidth, h]; exact Nat.mod_eq_of_lt y.isLt)

section
variable {kind dest chan gHi gLo key retry hold spare len : Byte} {payload : List Byte} {rec : MailRecord}

/-- R52, R170: the record of each kind, with the fields that the kind does not use held as 0. -/
theorem mailRecordOf_some (hl : len.toNat ≤ 64) (hk : rec.key = key) (hh : rec.holdOffRounds = hold)
    (hp : rec.payload = payload.take len.toNat)
    (hf : (kind = 0 ∧ rec.kind = .remote ∧ dest.toNat = rec.dest.toNat ∧ chan.toNat = rec.channel.val
          ∧ rec.group = 0 ∧ retry.toNat = rec.retryLimit.toNat)
        ∨ (kind = 1 ∧ rec.kind = .localHandOff ∧ rec.dest = 0 ∧ chan.toNat = rec.channel.val
          ∧ rec.group = 0 ∧ rec.retryLimit = 0)
        ∨ (kind = 2 ∧ rec.kind = .group ∧ rec.dest = 0 ∧ rec.channel = 0
          ∧ 256 * gHi.toNat + gLo.toNat = rec.group.toNat ∧ retry.toNat = rec.retryLimit.toNat)) :
    mailRecordOf kind dest chan gHi gLo key retry hold len payload = some rec := by
  obtain ⟨rkind, rdest, rchan, rgroup, rkey, rretry, rhold, rpayload⟩ := rec
  simp only at hk hh hp hf
  subst hk hh hp
  unfold mailRecordOf
  rw [if_pos hl]
  rcases hf with ⟨rfl, rfl, hd, hc, rfl, hr⟩ | ⟨rfl, rfl, rfl, hc, rfl, rfl⟩ | ⟨rfl, rfl, rfl, rfl, hg, hr⟩
  · simp only [show MailKind.ofByte 0 = some .remote from rfl, indexOfByte_some hc]
    rw [if_pos ⟨hd ▸ rdest.isLt, hr ▸ rretry.isLt⟩, setWidth_of_toNat hd, setWidth_of_toNat hr]
  · simp only [show MailKind.ofByte 1 = some .localHandOff from rfl, indexOfByte_some hc]
  · simp only [show MailKind.ofByte 2 = some .group from rfl, groupOfBytes_some hg.symm]
    rw [if_pos (hr ▸ rretry.isLt), setWidth_of_toNat hr]

/-- R52, R55: a kind, a length, or a field that the kind uses, out of range. -/
theorem mailRecordOf_none (h : 2 < kind.toNat ∨ 64 < len.toNat
      ∨ (kind = 0 ∧ (31 < dest.toNat ∨ 15 < chan.toNat ∨ 15 < retry.toNat))
      ∨ (kind = 1 ∧ 15 < chan.toNat)
      ∨ (kind = 2 ∧ (4095 < 256 * gHi.toNat + gLo.toNat ∨ 15 < retry.toNat))) :
    mailRecordOf kind dest chan gHi gLo key retry hold len payload = none := by
  unfold mailRecordOf
  split
  next hl =>
    rcases h with hk | hlen | ⟨rfl, h⟩ | ⟨rfl, hc⟩ | ⟨rfl, h⟩
    · rw [MailKind.ofByte_none hk]
    · omega
    · simp only [show MailKind.ofByte 0 = some .remote from rfl]
      split
      next c hc =>
        refine if_neg fun hlt => ?_
        rcases h with h | h | h
        · omega
        · rw [indexOfByte_none h] at hc
          cases hc
        · omega
      next => rfl
    · simp only [show MailKind.ofByte 1 = some .localHandOff from rfl, indexOfByte_none hc]
    · simp only [show MailKind.ofByte 2 = some .group from rfl]
      split
      next g hg =>
        refine if_neg fun hlt => ?_
        rcases h with h | h
        · rw [groupOfBytes_none h] at hg
          cases hg
        · omega
      next => rfl
  next => rfl

/-- The bytes of LOAD up to its payload. -/
abbrev loadBytes (index kind dest chan gHi gLo key retry hold spare len : Byte) (payload : List Byte) : List Byte :=
  index :: kind :: dest :: chan :: gHi :: gLo :: key :: retry :: hold :: spare :: len :: payload

variable {index : Byte}

/-- R55: a LOAD that is long enough, or whose length is out of range, is not cut. -/
theorem loadBody_whole (hl : 64 < len.toNat ∨ len.toNat ≤ payload.length) :
    loadBody p (loadBytes index kind dest chan gHi gLo key retry hold spare len payload) s
      = match indexOfByte 4 index with
        | none => (s, .badArgument)
        | some i =>
          if (s.mailbox ⟨p, i⟩).state.refusesLoad then (s, .busy)
          else
            match mailRecordOf kind dest chan gHi gLo key retry hold len payload with
            | some rec => (s.load ⟨p, i⟩ rec, .ok)
            | none => (s, .badArgument) := by
  have hn : (decide (len.toNat ≤ 64) && decide (payload.length < len.toNat)) = false := by
    rw [Bool.and_eq_false_iff, decide_eq_false_iff_not, decide_eq_false_iff_not]
    omega
  simp only [loadBody, hn, Bool.false_eq_true, if_false] <;> rfl

/-- R55: LOAD at a mailbox of the port. -/
theorem loadBody_at (hl : 64 < len.toNat ∨ len.toNat ≤ payload.length) (hi : index.toNat = k.val) :
    loadBody p (loadBytes index kind dest chan gHi gLo key retry hold spare len payload) s
      = if (s.mailbox ⟨p, k⟩).state.refusesLoad then (s, .busy)
        else
          match mailRecordOf kind dest chan gHi gLo key retry hold len payload with
          | some rec => (s.load ⟨p, k⟩ rec, .ok)
          | none => (s, .badArgument) := by
  rw [loadBody_whole hl, indexOfByte_some hi]

end

/-- R55: the states in which LOAD is taken. -/
theorem MailState.takesLoad {st : MailState} (h : st ∈ [.vacant, .loaded, .done]) : st.refusesLoad = false := by
  revert h
  cases st <;> decide

/-- R55: what an accepted LOAD writes. -/
theorem State.load_writes (s : State) (r : Ref) (rec : MailRecord) :
    s.Writes (s.load r rec) r { Mailbox.vacant with record := some rec, state := .loaded } :=
  fun q => s.putMailbox_mailbox r q _

theorem State.load_completions (s : State) (r : Ref) (rec : MailRecord) (q : Port) :
    (s.load r rec).completions q
      = if q = r.port then (s.completions r.port).filter (· != r.index) else s.completions q :=
  State.dropCompletion_completions (s.putMailbox r _) r q

/-- The filter of the statements, and the filter of the model. -/
theorem filter_ne_eq (l : List MailboxIndex) (k : MailboxIndex) : l.filter (· ≠ k) = l.filter (· != k) := by
  congr 1
  funext i
  simp only [ne_eq, decide_not, bne, beq_eq_decide]

/-- Settles O22: the record that the bytes give, and what LOAD writes. -/
theorem loadWritesTheRecord : Obligations.LoadWritesTheRecord := by
  intro s p k kind dest chan gHi gLo key retry hold spare len payload hin hst hlen hpay rec hk hh hp hf
  have hbody : loadBody p (loadBytes (BitVec.ofNat 8 k.val) kind dest chan gHi gLo key retry hold spare len payload)
      (s.closeTransaction p) = ((s.closeTransaction p).load ⟨p, k⟩ rec, .ok) := by
    rw [loadBody_at (.inr hpay) (toNat_ofNat_index k), (State.closeTransaction_views s p).1, MailState.takesLoad hst,
      mailRecordOf_some hlen hk hh hp hf]
    rfl
  obtain ⟨e, hans⟩ := State.takeCommand_taken .load hin hbody (State.load_only _ _ _) (by decide) (by decide)
  refine ⟨_, rfl, hans, ?_⟩
  have hw := (s.closeTransaction p).load_writes ⟨p, k⟩ rec
  have hc := (s.closeTransaction p).load_completions ⟨p, k⟩ rec
  rw [e]
  exact ⟨hw.self, fun r hr => hw.other hr, by rw [filter_ne_eq]; exact (hc p).trans (if_pos rfl),
    fun q hq => (hc q).trans (if_neg hq)⟩

/-! ## REQUEST -/

theorem requestBody_at {b : Byte} (rest : List Byte) (h : b.toNat = k.val) :
    requestBody p (b :: rest) s = requestChecks ⟨p, k⟩ s := by
  simp [requestBody, indexOfByte_some h]

theorem requestBody_out {b : Byte} (rest : List Byte) (h : 3 < b.toNat) :
    requestBody p (b :: rest) s = (s, .badArgument) := by
  simp [requestBody, indexOfByte_none (n := 4) h]

theorem requestChecks_busy (h : (s.mailbox r).state ∉ [.loaded, .done]) : requestChecks r s = (s, .busy) := by
  simp only [List.mem_cons, List.not_mem_nil, or_false, not_or] at h
  unfold requestChecks
  split
  next hst _ => exact absurd hst h.1
  next hst _ => exact absurd hst h.2
  next => rfl

/-- R56: the checks of REQUEST after its state check, on a mailbox that holds a record. -/
theorem requestChecks_eq {rec : MailRecord} (hst : (s.mailbox r).state ∈ [.loaded, .done])
    (hrec : (s.mailbox r).record = some rec) :
    requestChecks r s
      = if rec.kind ≠ .localHandOff ∧ s.member.lineState = .offline then (s, .offline)
        else if rec.kind = .remote ∧ rec.dest = s.member.config.nodeAddress then (s, .badArgument)
        else (s.requestMailbox r rec, .ok) := by
  simp only [List.mem_cons, List.not_mem_nil, or_false] at hst
  rcases hst with hst | hst <;> simp [requestChecks, hst, hrec]

/-- Settles O23: each refusal leaves the state that the release hands to the body. -/
theorem loadAndRequestRefusals : Obligations.LoadAndRequestRefusals := by
  intro s p hin
  refine ⟨fun index kind dest chan gHi gLo key retry hold spare len payload hl => ⟨fun hi => ?_, fun k hi =>
    ⟨fun hst => ?_, fun hst hbad => ?_⟩⟩, fun b rest => ⟨fun hb => ?_, fun k hb => ⟨fun hst => ?_, fun rec hst hrec hk =>
    ⟨fun hoff => ?_, fun hon hr hd => ?_⟩⟩⟩⟩
  · exact ⟨_, rfl, State.takeCommand_refused .load hin (by rw [loadBody_whole hl, indexOfByte_none hi])⟩
  · refine ⟨_, rfl, State.takeCommand_refused .load hin ?_⟩
    have href : ((s.closeTransaction p).mailbox ⟨p, k⟩).state.refusesLoad = true := by
      rw [(State.closeTransaction_views s p).1]
      revert hst
      cases (s.mailbox ⟨p, k⟩).state <;> decide
    rw [loadBody_at hl hi, if_pos href]
  · refine ⟨_, rfl, State.takeCommand_refused .load hin ?_⟩
    rw [loadBody_at hl hi, (State.closeTransaction_views s p).1, MailState.takesLoad hst, mailRecordOf_none hbad]
    rfl
  · exact ⟨_, rfl, State.takeCommand_refused .request hin (requestBody_out rest hb)⟩
  · exact ⟨_, rfl, State.takeCommand_refused .request hin ((requestBody_at rest hb).trans (requestChecks_busy hst))⟩
  · refine ⟨_, rfl, State.takeCommand_refused .request hin ?_⟩
    rw [requestBody_at rest hb, requestChecks_eq (s := s.closeTransaction p) hst hrec, if_pos ⟨hk, hoff⟩]
  · refine ⟨_, rfl, State.takeCommand_refused .request hin ?_⟩
    rw [requestBody_at rest hb, requestChecks_eq (s := s.closeTransaction p) hst hrec, if_neg fun h => hon h.2, if_pos ⟨hr, hd⟩]

/-! ## CLEAR -/

theorem clearBody_at {b : Byte} (rest : List Byte) (h : b.toNat = k.val) :
    clearBody p (b :: rest) s = clearChecks ⟨p, k⟩ s := by
  simp [clearBody, indexOfByte_some h]

theorem clearBody_out {b : Byte} (rest : List Byte) (h : 3 < b.toNat) : clearBody p (b :: rest) s = (s, .badArgument) := by
  simp [clearBody, indexOfByte_none (n := 4) h]

theorem clearChecks_vacant (h : (s.mailbox r).state = .vacant) : clearChecks r s = (s, .ok) := by
  simp [clearChecks, h]

theorem clearChecks_busy (h : (s.mailbox r).state ∈ [.queued, .sending, .held, .waitingSpace, .retiring]) :
    clearChecks r s = (s, .busy) := by
  simp only [List.mem_cons, List.not_mem_nil, or_false] at h
  rcases h with h | h | h | h | h <;> simp [clearChecks, h]

theorem clearChecks_taken (h : (s.mailbox r).state ∈ [.loaded, .done]) :
    clearChecks r s = ((s.putMailbox r .vacant).dropCompletion r, .ok) := by
  simp only [List.mem_cons, List.not_mem_nil, or_false] at h
  rcases h with h | h <;> simp [clearChecks, h]

/-- Settles O27, by the state of the mailbox. -/
theorem clearEmptiesTheMailbox : Obligations.ClearEmptiesTheMailbox := by
  intro s p hin
  refine ⟨⟨_, rfl, State.takeCommand_refused .clear hin rfl⟩, fun b rest => ⟨fun hb => ?_, fun k hb =>
    ⟨fun hst => ?_, fun hst => ?_, fun hst => ?_⟩⟩⟩
  · exact ⟨_, rfl, State.takeCommand_refused .clear hin (clearBody_out rest hb)⟩
  · exact ⟨_, rfl, State.takeCommand_refused .clear hin ((clearBody_at rest hb).trans (clearChecks_vacant hst))⟩
  · exact ⟨_, rfl, State.takeCommand_refused .clear hin ((clearBody_at rest hb).trans (clearChecks_busy hst))⟩
  · have hbody : clearBody p (b :: rest) (s.closeTransaction p)
        = (((s.closeTransaction p).putMailbox ⟨p, k⟩ .vacant).dropCompletion ⟨p, k⟩, .ok) :=
      (clearBody_at rest hb).trans (clearChecks_taken hst)
    have honly : (s.closeTransaction p).OnlyChanges
        (((s.closeTransaction p).putMailbox ⟨p, k⟩ .vacant).dropCompletion ⟨p, k⟩) [.boxes, .completions] :=
      ((State.putMailbox_only _ _ _).mono (by decide)).seq (State.dropCompletion_only _ _) (by decide)
    obtain ⟨e, hans⟩ := State.takeCommand_taken .clear hin hbody honly (by decide) (by decide)
    have hw := (s.closeTransaction p).putMailbox_writes ⟨p, k⟩ .vacant
    have hc := State.dropCompletion_completions ((s.closeTransaction p).putMailbox ⟨p, k⟩ .vacant) ⟨p, k⟩
    refine ⟨_, rfl, hans, ?_⟩
    rw [e]
    exact ⟨hw.self, fun r hr => hw.other hr, by rw [filter_ne_eq]; exact (hc p).trans (if_pos rfl),
      fun q hq => (hc q).trans (if_neg hq)⟩

end Sys2Proof.Machine
end

section
/-! O28, O29: the data of READ_MAILBOX, READ_CHANNEL, READ_ENTRY and READ_QUEUE (R70, R113, R126, R152, R170), and
READ_COMPLETION with the entry that it removes (R67). -/

namespace Sys2Proof.Machine

variable {s : State} {p : Port} {arg : Byte}

/-! ## Snapshots by their argument -/

theorem State.snapMailbox_at {k : MailboxIndex} (h : arg.toNat = k.val) :
    s.snapMailbox p arg = validSnapshot .mailbox (mailboxData (s.mailbox ⟨p, k⟩)) .none := by
  simp [State.snapMailbox, indexOfByte_some h]

theorem State.snapMailbox_out (h : 3 < arg.toNat) : s.snapMailbox p arg = badSnapshot .mailbox := by
  simp [State.snapMailbox, indexOfByte_none (n := 4) h]

theorem State.snapChannel_at {c : ChannelNo} (h : arg.toNat = c.val) :
    s.snapChannel arg = validSnapshot .channel (channelData (s.channel c)) .none := by
  simp [State.snapChannel, indexOfByte_some h]

theorem State.snapChannel_out (h : 15 < arg.toNat) : s.snapChannel arg = badSnapshot .channel := by
  simp [State.snapChannel, indexOfByte_none (n := 16) h]

theorem State.snapEntry_at {e : EntryNo} (h : arg.toNat = e.val) :
    s.snapEntry arg = validSnapshot .entry (entryData (s.entry e)) .none := by
  simp [State.snapEntry, indexOfByte_some h]

theorem State.snapEntry_out (h : 23 < arg.toNat) : s.snapEntry arg = badSnapshot .entry := by
  simp [State.snapEntry, indexOfByte_none (n := 24) h]

theorem State.snapMailbox_cmd (s : State) (p : Port) (arg : Byte) : (s.snapMailbox p arg).cmd = .mailbox := by
  unfold State.snapMailbox
  split <;> rfl

theorem State.snapChannel_cmd (s : State) (arg : Byte) : (s.snapChannel arg).cmd = .channel := by
  unfold State.snapChannel
  split <;> rfl

theorem State.snapEntry_cmd (s : State) (arg : Byte) : (s.snapEntry arg).cmd = .entry := by
  unfold State.snapEntry
  split <;> rfl

theorem State.snapCompletion_cmd (s : State) (p : Port) : (s.snapCompletion p).cmd = .completion := by
  unfold State.snapCompletion
  split <;> rfl

/-! ## Read data -/

/-- R70, R170: the seventeen bytes of READ_MAILBOX for a mailbox with a record. -/
theorem mailboxData_some {m : Mailbox} {rec : MailRecord} (h : m.record = some rec) :
    mailboxData m
      = [m.state.code, outcomeCode m.outcome, causeCode m.cause, BitVec.ofNat 8 m.attempts,
         (if m.lateAbort then 1 else 0), (if m.abortPending then 1 else 0), m.holdOff,
         rec.kind.code, BitVec.ofNat 8 rec.dest.toNat, BitVec.ofNat 8 rec.channel.val,
         BitVec.ofNat 8 (rec.group.toNat / 256), BitVec.ofNat 8 rec.group.toNat, rec.key,
         BitVec.ofNat 8 rec.retryLimit.toNat, rec.holdOffRounds, 0, BitVec.ofNat 8 rec.payload.length] := by
  simp only [mailboxData, h, recordData, bytesOfGroup_eq, byteOf, flagByte, BitVec.ofNat_toNat]
  rfl

/-- R126: the seven bytes of READ_ENTRY. -/
theorem entryData_eq (e : Entry) :
    entryData e
      = [ownerByte e.owner, (if e.enabled then 1 else 0), e.kind.code,
         BitVec.ofNat 8 (e.first.toNat / 256), BitVec.ofNat 8 e.first.toNat,
         BitVec.ofNat 8 (e.second.toNat / 256), BitVec.ofNat 8 e.second.toNat] := by
  simp only [entryData, bytesOfGroup_eq, flagByte]
  rfl

/-- R152: the eight bytes of READ_QUEUE. -/
theorem queueData_eq (s : State) (p : Port) :
    queueData s p
      = [BitVec.ofNat 8 (s.queue p).records.length, BitVec.ofNat 8 (s.queue p).capacity, (s.queue p).policy.code,
         BitVec.ofNat 8 (s.queue p).pendingLosses, (if (s.queue p).pin then 1 else 0)]
        ++ (match (s.queue p).records with
            | [] => [0xFF, 0xFF]
            | r :: _ => [r.origin.code, BitVec.ofNat 8 r.length])
        ++ [BitVec.ofNat 8 ((List.finRange 32).countP s.slotFree)] := by
  simp only [queueData, byteOf, flagByte, State.freeSlots, List.countP_eq_length_filter]
  cases (s.queue p).records <;> rfl

/-- Settles O28, command by command: the snapshot, by whether its argument is in range. -/
theorem readCommandsReport : Obligations.ReadCommandsReport := by
  intro s p arg hin
  obtain ⟨tm, hm, hms⟩ := execReadSnapshot_hasSnapshot s p .mailbox arg hin (s.snapMailbox_cmd p arg)
  obtain ⟨tc, hc, hcs⟩ := execReadSnapshot_hasSnapshot s p .channel arg hin (s.snapChannel_cmd arg)
  obtain ⟨te, he, hes⟩ := execReadSnapshot_hasSnapshot s p .entry arg hin (s.snapEntry_cmd arg)
  obtain ⟨tq, hq, hqs⟩ := execReadSnapshot_hasSnapshot s p .queue arg hin rfl
  refine ⟨⟨tm, s.snapMailbox p arg, hm, hms, fun h => ?_, fun k hk => ?_⟩,
    ⟨tc, s.snapChannel arg, hc, hcs, fun h => ?_, fun c hk => ?_⟩,
    ⟨te, s.snapEntry arg, he, hes, fun h => ?_, fun e hk => ?_⟩, tq, _, hq, hqs, rfl, queueData_eq s p⟩
  · rw [State.snapMailbox_out h]
    exact ⟨rfl, rfl⟩
  · rw [State.snapMailbox_at hk]
    refine ⟨rfl, fun rec hrec => mailboxData_some hrec, fun hv => ?_⟩
    rw [hv]
    rfl
  · rw [State.snapChannel_out h]
    exact ⟨rfl, rfl⟩
  · rw [State.snapChannel_at hk]
    exact ⟨rfl, rfl⟩
  · rw [State.snapEntry_out h]
    exact ⟨rfl, rfl⟩
  · rw [State.snapEntry_at hk]
    exact ⟨rfl, entryData_eq _⟩

/-! ## READ_COMPLETION -/

theorem State.snapCompletion_nil (h : s.completions p = []) : s.snapCompletion p = emptySnapshot .completion 0xFF := by
  simp [State.snapCompletion, h]

theorem State.snapCompletion_cons {k : MailboxIndex} {rest : List MailboxIndex} (h : s.completions p = k :: rest) :
    s.snapCompletion p
      = validSnapshot .completion (completionData k (s.mailbox ⟨p, k⟩)) (.dropCompletion k) := by
  simp [State.snapCompletion, h]

theorem readResult_empty {n : Snapshot} (j : Nat) (h : n.verdict = .empty) : readResult (some n) j = .empty := by
  simp [readResult, h]

/-- Settles O29: the release without a snapshot, the snapshot, and the release by the result of the snapshot. -/
theorem readCompletionReportsAndRemovesOldest : Obligations.ReadCompletionReportsAndRemovesOldest := by
  intro s p
  refine ⟨fun k hin => ⟨_, rfl, ?_⟩, fun arg hin => ?_, fun n j hs hcmd => ?_⟩
  · rw [s.takeRead_none p .completion k _ hin]
    exact s.report_closeTransaction_answered p _
  · obtain ⟨t, ht, hts⟩ := execReadSnapshot_hasSnapshot s p .completion arg hin (s.snapCompletion_cmd p)
    refine ⟨t, s.snapCompletion p, ht, hts, fun h => ?_, fun k rest h => ?_⟩
    · rw [State.snapCompletion_nil h]
      refine ⟨rfl, fun j => ?_⟩
      cases j <;> rfl
    · rw [State.snapCompletion_cons h]
      exact ⟨rfl, rfl, rfl⟩
  · have hexec : exec (.readCompletion p j) s = .next (s.takeRead p n.cmd j (dropReported p)) := by rw [hcmd]; rfl
    rw [hexec]
    refine ⟨fun hv => ?_, fun hv hj => ?_, fun k hv hj he => ?_⟩
    · exact ⟨_, rfl, State.takeRead_incomplete_answered _ hs (readResult_empty j hv) (by decide)⟩
    · exact ⟨_, rfl, State.takeRead_incomplete_answered _ hs (readResult_short hv hj) (by decide)⟩
    · obtain ⟨heq, hans⟩ := State.takeRead_effect_answered hs (readResult_whole hv hj)
        (dropReported_only (s.closeTransaction p) p n.effect) (by decide) (by decide)
      refine ⟨_, rfl, hans, ?_⟩
      have hdrop := (s.closeTransaction p).dropCompletion_completions ⟨p, k⟩
      rw [heq, he]
      exact ⟨by rw [filter_ne_eq]; exact (hdrop p).trans (if_pos rfl), fun q hq => (hdrop q).trans (if_neg hq)⟩

end Sys2Proof.Machine
end

section
/-! Local passes by the references that they decide (R84), and the local hand-off decision by its three outcomes (R85, R86):
refused, waiting, handed off. -/

namespace Sys2Proof.Machine

variable {s : State} {r w q : Ref} {p : Port} {i : SlotNo} {rec : MailRecord}

/-! ## Passes -/

/-- R84: a pass that is no retry leaves a reference that is not a free LOCAL mailbox. -/
theorem State.passAt_still (h : s.isLocal r = true → s.free r = false) : State.passAt false s r = s := by
  unfold State.passAt
  split
  next rec hrec =>
    by_cases hk : rec.kind = .localHandOff
    · have hf := h (by simp [State.isLocal, State.kind, hrec, hk])
      simp [hf]
    · simp [hk]
  next => rfl

/-- R84: a pass decides a free LOCAL mailbox. -/
theorem State.passAt_free (retry : Bool) (hrec : (s.mailbox r).record = some rec) (hk : rec.kind = .localHandOff)
    (hf : s.free r = true) : State.passAt retry s r = s.decideLocal r rec := by
  simp [State.passAt, hrec, hk, hf]

theorem State.foldl_passAt_still {l : List Ref} (h : ∀ q ∈ l, s.isLocal q = true → s.free q = false) :
    l.foldl (State.passAt false) s = s := by
  induction l with
  | nil => rfl
  | cons a l ih =>
    rw [List.foldl_cons, State.passAt_still (h a List.mem_cons_self)]
    exact ih fun q hq => h q (List.mem_cons_of_mem a hq)

/-- R84: where no LOCAL mailbox is free, a pass that is no retry decides nothing. -/
theorem State.NoEligibleLocal.localPass (h : s.NoEligibleLocal) : s.localPass false = s := State.foldl_passAt_still h

/-- R84: a pass that finds one LOCAL mailbox to decide. -/
theorem State.localPass_at {before after : List Ref} (hl : s.sched.refs = before ++ w :: after)
    (hb : ∀ q ∈ before, s.isLocal q = true → s.free q = false)
    (ha : ∀ q ∈ after, (State.passAt false s w).isLocal q = true → (State.passAt false s w).free q = false) :
    s.localPass false = State.passAt false s w := by
  unfold State.localPass
  rw [hl, List.foldl_append, List.foldl_cons, State.foldl_passAt_still hb, State.foldl_passAt_still ha]

/-! ## The decision by the channel -/

/-- R107: only an OPEN channel has a receiver. -/
theorem Channel.receiver_of_state {c : Channel} (h : c.state ≠ .opened) : c.receiver = none := by
  unfold Channel.receiver
  split
  next ho => exact absurd ho h
  all_goals rfl

/-- R85: without a receiver the mailbox is refused. -/
theorem State.decideLocal_refused (h : (s.channel rec.channel).receiver = none) :
    s.decideLocal r rec = s.complete r .refused none := by
  unfold State.decideLocal
  split
  next hst how =>
    rw [Channel.receiver, hst, how] at h
    cases h
  next => rfl

theorem Channel.receiver_eq_some {c : Channel} (h : c.receiver = some p) : c.state = .opened ∧ c.owner = some p := by
  unfold Channel.receiver at h
  split at h
  next hst => exact ⟨hst, h⟩
  all_goals cases h

/-- R85: without room in the queue or in the store the mailbox waits. -/
theorem State.decideLocal_waits (h : (s.channel rec.channel).receiver = some p)
    (hroom : (s.queue p).full = true ∨ s.freeSlots = []) : s.decideLocal r rec = s.waitForSpace r := by
  obtain ⟨hst, how⟩ := Channel.receiver_eq_some h
  rcases hroom with hfull | hfree
  · simp [State.decideLocal, hst, how, hfull]
  · simp [State.decideLocal, hst, how, s.lowestFree_none.2 hfree]

/-- R85, R86: with room in both it is handed off. -/
theorem State.decideLocal_handsOff (h : (s.channel rec.channel).receiver = some p) (hq : (s.queue p).full = false)
    (hi : s.LowestFree i) : s.decideLocal r rec = s.handOff r rec p i := by
  obtain ⟨hst, how⟩ := Channel.receiver_eq_some h
  simp [State.decideLocal, hst, how, hq, (s.lowestFree_some i).2 hi]

/-! ## What a hand-off writes (R86) -/

/-- The state of a hand-off before the mailbox completes. -/
def State.localDelivered (s : State) (r : Ref) (rec : MailRecord) (p : Port) (i : SlotNo) : State :=
  (s.writeSlot i rec.payload).appendRecord p
    { origin := .handOff r.port rec.channel, arrival := s.line.round, length := rec.payload.length, slot := i }

theorem State.handOff_eq (s : State) (r : Ref) (rec : MailRecord) (p : Port) (i : SlotNo) :
    s.handOff r rec p i = (s.localDelivered r rec p i).complete r .accepted none := rfl

theorem State.localDelivered_only (s : State) (r : Ref) (rec : MailRecord) (p : Port) (i : SlotNo) :
    s.OnlyChanges (s.localDelivered r rec p i) storeParts :=
  ((s.writeSlot_only i _).mono (by decide)).trans (State.appendRecord_only _ p _)

/-- R86, R141: the record at the tail of the receiver's queue. -/
theorem State.handOff_queue (s : State) (r : Ref) (rec : MailRecord) (p : Port) (i : SlotNo) (q : Port) :
    (s.handOff r rec p i).queue q
      = if q = p then
          { s.queue p with
            records := (s.queue p).records
              ++ [{ origin := .handOff r.port rec.channel, arrival := s.line.round,
                    lossesBefore := (s.queue p).pendingLosses, length := rec.payload.length, slot := i }],
            pendingLosses := 0 }
        else s.queue q := by
  have hc := (State.complete_only (s.localDelivered r rec p i) r .accepted none).queue (by decide) q
  have hw := (s.writeSlot_only i rec.payload).queue (by decide)
  rw [State.handOff_eq, hc, State.localDelivered, State.appendRecord_queue, hw, hw]
  rfl

/-- R145: RX of the receiver is set. -/
theorem State.handOff_rx (s : State) (r : Ref) (rec : MailRecord) (p : Port) (i : SlotNo) :
    ((s.handOff r rec p i).engine p).flags.rx = true := by
  rw [State.handOff_eq, State.complete_engine, State.localDelivered, State.appendRecord_engine, if_pos rfl]
  split <;> rfl

/-- R135, R141: the slot has one holder more. -/
theorem State.handOff_holders (s : State) (r : Ref) (rec : MailRecord) (p : Port) (i : SlotNo) :
    (s.handOff r rec p i).store.holders = s.store.holders.set i (s.store.holders[i] + 1) := rfl

theorem State.handOff_rxSlot (s : State) (r : Ref) (rec : MailRecord) (p : Port) (i : SlotNo) :
    (s.handOff r rec p i).store.rxSlot = s.store.rxSlot := rfl

/-- R86: the payload stands at the start of the slot. -/
theorem State.handOff_payload (s : State) (r : Ref) (rec : MailRecord) (p : Port) (i : SlotNo) :
    ((s.handOff r rec p i).store.bytes[i]).toList.take rec.payload.length = rec.payload.take 64 := by
  have e : (s.handOff r rec p i).store.bytes[i] = (s.writeSlot i rec.payload).store.bytes[i] := rfl
  rw [e, State.writeSlot_bytes, if_pos rfl, writeBytes_take]

theorem State.handOff_bytes (s : State) (r : Ref) (rec : MailRecord) (p : Port) {i j : SlotNo} (h : j ≠ i) :
    (s.handOff r rec p i).store.bytes[j] = s.store.bytes[j] := by
  have e : (s.handOff r rec p i).store.bytes[j] = (s.writeSlot i rec.payload).store.bytes[j] := rfl
  rw [e, State.writeSlot_bytes, if_neg h]

theorem State.handOff_completed (s : State) (r : Ref) (rec : MailRecord) (p : Port) (i : SlotNo) :
    s.Completed (s.handOff r rec p i) r .accepted none := by
  have hm := (s.localDelivered_only r rec p i).mailbox (by decide) r
  exact State.complete_completed _ _ (congrArg Mailbox.record hm) (congrArg Mailbox.attempts hm)

/-- R57, R85: the decision writes no record and no attempt count. -/
theorem State.decideLocal_keeps (s : State) (r : Ref) (rec : MailRecord) :
    ((s.decideLocal r rec).mailbox r).record = (s.mailbox r).record
      ∧ ((s.decideLocal r rec).mailbox r).attempts = (s.mailbox r).attempts := by
  rcases s.decideLocal_cases r rec with e | ⟨p, i, e⟩ | e
  · rw [e, State.waitForSpace, (s.putMailbox_writes r _).self]
    exact ⟨rfl, rfl⟩
  · obtain ⟨-, -, -, -, hrec, hatt, -⟩ := s.handOff_completed r rec p i
    rw [e]
    exact ⟨hrec, hatt⟩
  · rw [e, (s.complete_writes r _ _).self]
    exact ⟨rfl, rfl⟩

end Sys2Proof.Machine
end

section
/-! O24, O25, O26: REQUEST of a mailbox that has to wait (R56, R57, R76), REQUEST of a free LOCAL mailbox, which is decided in
the same event (R84 to R86), and ABORT (R63). -/

namespace Sys2Proof.Machine

variable {s : State} {r q : Ref} {p : Port} {k : MailboxIndex} {rec : MailRecord}

/-! ## REQUEST before any local pass -/

/-- R54, R75: a mailbox that REQUEST may take is off the pending list. -/
theorem State.PendingListSound.not_mem (h : s.PendingListSound) (hst : (s.mailbox r).state = .loaded ∨ (s.mailbox r).state = .done) :
    r ∉ s.sched.refs := by
  intro hm
  have hp := (h.2 r.port r.index).1 hm
  rcases hst with e | e <;> rw [e] at hp <;> cases hp

/-- Everything on the list is earlier than what is put at its end. -/
theorem takeWhile_append_self {l : List Ref} (h : r ∉ l) : (l ++ [r]).takeWhile (· != r) = l := by
  rw [List.takeWhile_append_of_pos fun a ha => by simpa using fun e : a = r => h (e ▸ ha)]
  simp

/-- What is put at the end of the list and removed again leaves it. -/
theorem filter_append_self {l : List Ref} (h : r ∉ l) : (l ++ [r]).filter (· != r) = l := by
  rw [List.filter_append, List.filter_eq_self.2 fun a ha => by simpa using fun e : a = r => h (e ▸ ha)]
  simp

/-- R76: a requested mailbox is blocked by every reference to its destination. -/
theorem State.enqueue_blocked_self (rec : MailRecord) (hr : r ∉ s.sched.refs) :
    (s.enqueue r rec).blocked r = true ↔ ∃ e ∈ s.sched.refs, s.destination e = s.destination r := by
  have hw := s.enqueue_writes r rec
  have hd : ∀ e, (s.enqueue r rec).destination e = s.destination e := fun e => by
    by_cases he : e = r
    · subst he
      simp only [State.destination, hw.self]
    · exact State.destination_congr (hw.other he)
  rw [State.blocked_iff, State.earlier, State.enqueue_refs, takeWhile_append_self hr]
  simp only [hd]

/-- R77: when a requested mailbox is free. -/
theorem State.enqueue_free (hr : r ∉ s.sched.refs) :
    (s.enqueue r rec).free r = true
      ↔ rec.holdOffRounds = 0 ∧ ∀ e ∈ s.sched.refs, s.destination e ≠ s.destination r := by
  rw [State.free_iff, (s.enqueue_writes r rec).self, ← Bool.not_eq_true, State.enqueue_blocked_self rec hr]
  simp

/-- R52: the destination of a LOCAL record is its channel. -/
theorem State.destination_local (hrec : (s.mailbox r).record = some rec) (hk : rec.kind = .localHandOff) :
    s.destination r = some (.localHandOff rec.channel) := by
  simp [State.destination, hrec, MailRecord.destination, hk]

theorem State.requestMailbox_line (hk : rec.kind ≠ .localHandOff) : s.requestMailbox r rec = s.enqueue r rec := by
  simp [State.requestMailbox, hk]

theorem State.requestMailbox_local (hk : rec.kind = .localHandOff) :
    s.requestMailbox r rec = (s.enqueue r rec).localPass false := by
  simp [State.requestMailbox, hk]

/-- R56: REQUEST passes its checks. -/
theorem requestBody_taken (rest : List Byte) (hst : (s.mailbox ⟨p, k⟩).state = .loaded ∨ (s.mailbox ⟨p, k⟩).state = .done)
    (hrec : (s.mailbox ⟨p, k⟩).record = some rec)
    (hon : rec.kind ≠ .localHandOff → s.member.lineState ≠ .offline)
    (hown : rec.kind = .remote → rec.dest ≠ s.member.config.nodeAddress) :
    requestBody p (BitVec.ofNat 8 k.val :: rest) s = (s.requestMailbox ⟨p, k⟩ rec, .ok) := by
  rw [requestBody_at rest (toNat_ofNat_index k), requestChecks_eq (by simpa using hst) hrec,
    if_neg fun h => hon h.1 h.2, if_neg fun h => hown h.1 h.2]

/-! ## REQUEST that waits -/

/-- R84: the pass after the REQUEST of a LOCAL mailbox that is not free decides nothing. -/
theorem State.requestMailbox_waits (hp : s.PendingListSound) (hn : s.NoEligibleLocal)
    (hst : (s.mailbox r).state = .loaded ∨ (s.mailbox r).state = .done) (hrec : (s.mailbox r).record = some rec)
    (hk : rec.kind = .localHandOff)
    (hwait : rec.holdOffRounds ≠ 0 ∨ ∃ e ∈ s.sched.refs, s.destination e = some (.localHandOff rec.channel)) :
    s.requestMailbox r rec = s.enqueue r rec := by
  have hr := hp.not_mem hst
  rw [State.requestMailbox_local hk]
  refine State.NoEligibleLocal.localPass (hn.enqueue rec hr fun _ => ?_)
  rw [← Bool.not_eq_true, State.enqueue_free hr, State.destination_local hrec hk]
  rintro ⟨h0, hfree⟩
  rcases hwait with hh | ⟨e, he, hd⟩
  · exact hh h0
  · exact hfree e he hd

/-- Settles O24: nothing is decided, so that REQUEST does what it does before any local pass. -/
theorem requestQueuesMailbox : Obligations.RequestQueuesMailbox := by
  intro s p k rec rest hin hst hrec hcase
  have hchecks : (rec.kind ≠ .localHandOff → s.member.lineState ≠ .offline)
      ∧ (rec.kind = .remote → rec.dest ≠ s.member.config.nodeAddress) := by
    rcases hcase with ⟨-, hon, hown⟩ | ⟨hk, -⟩
    · exact ⟨fun _ => hon, hown⟩
    · exact ⟨fun h => absurd hk h, fun h => by rw [hk] at h; cases h⟩
  have hqueued : (s.closeTransaction p).requestMailbox ⟨p, k⟩ rec = (s.closeTransaction p).enqueue ⟨p, k⟩ rec := by
    rcases hcase with ⟨hk, -⟩ | ⟨hk, hp, hn, hwait⟩
    · exact State.requestMailbox_line hk
    · exact State.requestMailbox_waits (s := s.closeTransaction p) hp
        (State.NoEligibleLocal.frame hn (s.closeTransaction_only p) (by decide) (by decide)) hst hrec hk hwait
  have hbody := requestBody_taken (s := s.closeTransaction p) rest hst hrec hchecks.1 hchecks.2
  rw [hqueued] at hbody
  obtain ⟨e, hans⟩ := State.takeCommand_taken .request hin hbody (State.enqueue_only _ _ _) (by decide) (by decide)
  have hw := (s.closeTransaction p).enqueue_writes ⟨p, k⟩ rec
  have hc := (s.closeTransaction p).enqueue_completions ⟨p, k⟩ rec
  refine ⟨_, rfl, hans, ?_⟩
  rw [e]
  refine ⟨hw.self.trans ?_, fun r hr => hw.other hr, rfl, by rw [filter_ne_eq]; exact (hc p).trans (if_pos rfl),
    fun q hq => (hc q).trans (if_neg hq)⟩
  rw [(State.closeTransaction_views s p).1, ← hrec]

/-! ## Commands that decide mailboxes or complete one -/

/-- R155, R156: a command whose body may change all that a local pass may change. -/
theorem State.takeCommand_passing (c : Command) {body : State → State × Result} {u : State} {x : Result}
    (h : s.InTransaction p) (hb : body (s.closeTransaction p) = (u, x)) (hf : (s.closeTransaction p).OnlyChanges u passParts)
    (hu : (s.closeTransaction p).OnlyOtherFlags u) :
    s.takeCommand p c body = u.report p x
      ∧ ((u.report p x).engine p).lastResult = x ∧ ((u.report p x).engine p).txn = none
      ∧ s.OnlyChanges (u.report p x) [.boxes, .completions, .refs, .store, .queues, .engines] := by
  have e := s.takeCommand_eq p c body h
  rw [hb] at e
  refine ⟨e, ?_, ?_, ((((s.closeTransaction_only p).mono (by decide)).trans hf).seq (State.report_only _ p x)
    (by decide)).mono (by decide)⟩
  · rw [State.report_engine, if_pos rfl]
  · rw [State.report_engine, if_pos rfl]
    exact (hu.txn p).trans (by rw [State.closeTransaction_engine, if_pos rfl])

/-- R158: a report leaves every flag that stands. -/
theorem State.report_rx {q : Port} (h : (s.engine q).flags.rx = true) (x : Result) :
    ((s.report p x).engine q).flags.rx = true := by
  rw [State.report_engine]
  split
  next he => rw [← he]; exact h
  next => exact h

theorem State.report_store (s : State) (p : Port) (x : Result) : (s.report p x).store = s.store := rfl

theorem State.report_queue (s : State) (p q : Port) (x : Result) : (s.report p x).queue q = s.queue q := rfl

/-- Of a queue the end of a transaction releases the transaction pin alone. -/
theorem State.closeTransaction_queue_keeps (s : State) (p q : Port) :
    ((s.closeTransaction p).queue q).records = (s.queue q).records
      ∧ ((s.closeTransaction p).queue q).pendingLosses = (s.queue q).pendingLosses
      ∧ ((s.closeTransaction p).queue q).full = (s.queue q).full := by
  rw [State.closeTransaction_queue]
  split
  next he => rw [he]; exact ⟨rfl, rfl, rfl⟩
  next => exact ⟨rfl, rfl, rfl⟩

/-! ## REQUEST that is decided -/

/-- R84: the pass after the REQUEST of a free LOCAL mailbox decides that mailbox, and no other. -/
theorem State.requestMailbox_decides (hp : s.PendingListSound) (hn : s.NoEligibleLocal)
    (hst : (s.mailbox r).state = .loaded ∨ (s.mailbox r).state = .done) (hrec : (s.mailbox r).record = some rec)
    (hk : rec.kind = .localHandOff) (h0 : rec.holdOffRounds = 0)
    (hfree : ∀ e ∈ s.sched.refs, s.destination e ≠ some (.localHandOff rec.channel)) :
    s.requestMailbox r rec = (s.enqueue r rec).decideLocal r rec := by
  have hr := hp.not_mem hst
  have hw := s.enqueue_writes r rec
  have hself : (s.enqueue r rec).free r = true :=
    (State.enqueue_free hr).2 ⟨h0, by rw [State.destination_local hrec hk]; exact hfree⟩
  rw [State.requestMailbox_local hk,
    State.localPass_at (s.enqueue_refs r rec) (fun q hq => hn.enqueue_listed rec hr hq) (by simp),
    State.passAt_free false (by rw [hw.self]; exact hrec) hk hself]

/-- R66: the requested mailbox has entered DONE in the same event. -/
def State.RequestCompleted (s t : State) (r : Ref) (o : MailOutcome) : Prop :=
  (t.mailbox r).state = .done ∧ (t.mailbox r).outcome = some o ∧ t.sched.refs = s.sched.refs
    ∧ (t.engine r.port).flags.txDone = true
    ∧ t.completions r.port = (s.completions r.port).filter (· ≠ r.index) ++ [r.index]

/-- R56, R66: the mailbox joins the pending list and the completion of it leaves that list again. -/
theorem State.requestCompleted_of {u : State} (hr : r ∉ s.sched.refs) (h : (s.enqueue r rec).OnlyChanges u storeParts)
    (o : MailOutcome) (x : Result) : s.RequestCompleted ((u.complete r o none).report p x) r o := by
  have hc : u.Completed ((u.complete r o none).report p x) r o none :=
    (State.complete_completed o none rfl rfl).leaves (State.report_leaves _ p x r)
  obtain ⟨hdone, hout, -, -, -, -, -, -, htx⟩ := hc
  have hrefs : u.sched.refs = s.sched.refs ++ [r] := h.2 .refs (by decide)
  have hcomp := (h.completions (by decide) r.port).trans (s.enqueue_completions r rec r.port)
  refine ⟨hdone, hout, ?_, htx, ?_⟩
  · rw [(State.report_fields _ p x).2.2.2.2.1, State.complete_refs, hrefs, filter_append_self hr]
  · rw [(State.report_views _ p x).2.2.1, State.complete_completions, if_pos rfl, hcomp, if_pos rfl, filter_ne_eq]

theorem State.decideLocal_onlyOtherFlags (s : State) (r : Ref) (rec : MailRecord) :
    s.OnlyOtherFlags (s.decideLocal r rec) := by
  rcases s.decideLocal_cases r rec with e | ⟨p, i, e⟩ | e <;> rw [e]
  · exact .of_engine fun _ => rfl
  · exact s.handOff_onlyOtherFlags r rec p i
  · exact s.complete_onlyOtherFlags r _ _

theorem State.complete_store (s : State) (r : Ref) (o : MailOutcome) (c : Option ExpiryCause) :
    (s.complete r o c).store = s.store := (s.complete_only r o c).2 .store (by decide)

/-- R85: a requested mailbox without a receiver is refused. -/
theorem State.requested_refused (hr : r ∉ s.sched.refs) (h : (s.channel rec.channel).receiver = none) (x : Result) :
    s.RequestCompleted (((s.enqueue r rec).decideLocal r rec).report p x) r .refused
      ∧ ((s.enqueue r rec).decideLocal r rec).store = s.store := by
  have e : (s.enqueue r rec).decideLocal r rec = (s.enqueue r rec).complete r .refused none := State.decideLocal_refused h
  rw [e]
  exact ⟨State.requestCompleted_of hr (.refl _ _) .refused x, State.complete_store _ r _ _⟩

section
variable {q : Port} (h : (s.channel rec.channel).receiver = some q)
include h

/-- R62, R85: a requested mailbox without room waits in its place. -/
theorem State.requested_waits (hroom : (s.queue q).full = true ∨ s.freeSlots = []) :
    (((s.enqueue r rec).decideLocal r rec).mailbox r).state = .waitingSpace
      ∧ ((s.enqueue r rec).decideLocal r rec).sched.refs = s.sched.refs ++ [r]
      ∧ ((s.enqueue r rec).decideLocal r rec).store = s.store
      ∧ ((s.enqueue r rec).decideLocal r rec).queue q = s.queue q := by
  have e : (s.enqueue r rec).decideLocal r rec = (s.enqueue r rec).waitForSpace r := State.decideLocal_waits h hroom
  rw [e]
  exact ⟨congrArg Mailbox.state (State.putMailbox_writes _ r _).self, rfl, rfl, rfl⟩

/-- R86: a requested mailbox with room in queue and store is handed off. -/
theorem State.requested_handedOff {i : SlotNo} (hq : (s.queue q).full = false) (hi : s.LowestFree i) :
    (s.enqueue r rec).decideLocal r rec = (s.enqueue r rec).handOff r rec q i := State.decideLocal_handsOff h hq hi

end

/-- R66, R86: the mailbox of a hand-off completes. -/
theorem State.requested_handOff_completed (hr : r ∉ s.sched.refs) (q : Port) (i : SlotNo) (x : Result) :
    s.RequestCompleted (((s.enqueue r rec).handOff r rec q i).report p x) r .accepted := by
  rw [State.handOff_eq]
  exact State.requestCompleted_of hr (State.localDelivered_only _ r rec q i) .accepted x

/-- R86, R141: its record is at the tail of the receiver's queue. -/
theorem State.requested_handOff_queue (s : State) (r : Ref) (rec : MailRecord) (q : Port) (i : SlotNo) :
    (((s.enqueue r rec).handOff r rec q i).queue q).records
        = (s.queue q).records
          ++ [{ origin := .handOff r.port rec.channel, arrival := s.line.round,
                lossesBefore := (s.queue q).pendingLosses, length := rec.payload.length, slot := i }]
      ∧ (((s.enqueue r rec).handOff r rec q i).queue q).pendingLosses = 0 := by
  rw [State.handOff_queue, if_pos rfl]
  exact ⟨rfl, rfl⟩

theorem State.requested_handOff_holders (s : State) (r : Ref) (rec : MailRecord) (q : Port) (i : SlotNo) :
    ((s.enqueue r rec).handOff r rec q i).store.holders[i] = s.store.holders[i] + 1 := by
  rw [State.handOff_holders]
  exact Vector.getElem_set_self _

/-- Settles O25: the decision on the state in which the mailbox has been requested, by its three outcomes. -/
theorem requestDecidesFreeLocalMailbox : Obligations.RequestDecidesFreeLocalMailbox := by
  intro s p k rec rest hin hp hn hst hrec hk h0 hfree
  have hr : (⟨p, k⟩ : Ref) ∉ s.sched.refs := hp.not_mem hst
  have hbody := requestBody_taken (s := s.closeTransaction p) rest hst hrec (fun h => absurd hk h)
    (fun h => by rw [hk] at h; cases h)
  have honly := (s.closeTransaction p).requestMailbox_only ⟨p, k⟩ rec
  rw [State.requestMailbox_decides (s := s.closeTransaction p) hp
    (State.NoEligibleLocal.frame hn (s.closeTransaction_only p) (by decide) (by decide)) hst hrec hk h0 hfree] at hbody honly
  have hflags : (s.closeTransaction p).OnlyOtherFlags (((s.closeTransaction p).enqueue ⟨p, k⟩ rec).decideLocal ⟨p, k⟩ rec) :=
    (State.OnlyOtherFlags.of_frame (State.enqueue_only _ _ _) (by decide)).trans (State.decideLocal_onlyOtherFlags _ _ _)
  obtain ⟨e, hres, htxn, hframe⟩ := State.takeCommand_passing .request hin hbody honly hflags
  obtain ⟨hkrec, hkatt⟩ := ((s.closeTransaction p).enqueue ⟨p, k⟩ rec).decideLocal_keeps ⟨p, k⟩ rec
  rw [((s.closeTransaction p).enqueue_writes ⟨p, k⟩ rec).self] at hkrec hkatt
  refine ⟨_, rfl, ?_⟩
  rw [e]
  refine ⟨hres, htxn, hkatt, hkrec.trans hrec, fun hnone => ?_, fun q hq => ⟨fun hroom => ?_, fun i hfull hi => ?_⟩, hframe⟩
  · obtain ⟨⟨hdone, hout, hrefs, htx, hcomp⟩, hstore⟩ := State.requested_refused (s := s.closeTransaction p) (p := p) hr hnone .ok
    exact ⟨hdone, hout, hrefs, htx, hcomp, hstore⟩
  · obtain ⟨hrecs, -, hfull⟩ := s.closeTransaction_queue_keeps p q
    obtain ⟨hwait, hrefs, hstore, hqueue⟩ :=
      State.requested_waits (s := s.closeTransaction p) (r := ⟨p, k⟩) hq (by rw [hfull]; exact hroom)
    exact ⟨hwait, hrefs, hstore, (congrArg Queue.records hqueue).trans hrecs⟩
  · obtain ⟨hrecs, hloss, hfull'⟩ := s.closeTransaction_queue_keeps p q
    rw [State.requested_handedOff (s := s.closeTransaction p) hq (hfull'.trans hfull) hi]
    obtain ⟨hdone, hout, hrefs, htx, hcomp⟩ :=
      State.requested_handOff_completed (s := s.closeTransaction p) (rec := rec) (p := p) hr q i .ok
    obtain ⟨hrecord, hzero⟩ := (s.closeTransaction p).requested_handOff_queue ⟨p, k⟩ rec q i
    rw [hrecs, hloss] at hrecord
    rw [State.report_store, State.report_queue]
    exact ⟨hdone, hout, hrefs, htx, hcomp, hrecord, hzero, State.report_rx (State.handOff_rx _ _ _ q i) .ok,
      State.requested_handOff_holders _ _ rec q i, State.handOff_payload _ _ _ q i,
      fun j hj => State.handOff_bytes _ _ _ q hj⟩

/-! ## ABORT -/

theorem abortBody_at {b : Byte} (rest : List Byte) (h : b.toNat = k.val) :
    abortBody p (b :: rest) s = abortChecks ⟨p, k⟩ s := by
  simp [abortBody, indexOfByte_some h]

theorem abortBody_out {b : Byte} (rest : List Byte) (h : 3 < b.toNat) : abortBody p (b :: rest) s = (s, .badArgument) := by
  simp [abortBody, indexOfByte_none (n := 4) h]

theorem abortChecks_notPending (h : (s.mailbox r).state ∈ [.vacant, .loaded, .done, .retiring]) :
    abortChecks r s = (s, .notPending) := by
  simp only [List.mem_cons, List.not_mem_nil, or_false] at h
  rcases h with h | h | h | h <;> simp [abortChecks, h]

theorem abortChecks_sending (h : (s.mailbox r).state = .sending) :
    abortChecks r s = (s.putMailbox r { s.mailbox r with abortPending := true }, .ok) := by
  simp [abortChecks, h]

theorem abortChecks_waiting (h : (s.mailbox r).state ∈ [.queued, .held, .waitingSpace]) :
    abortChecks r s = ((s.completeUpd r .aborted none).finish, .ok) := by
  simp only [List.mem_cons, List.not_mem_nil, or_false] at h
  rcases h with h | h | h <;> simp [abortChecks, h]

/-- R84: the pass after a completion leaves the mailbox that has completed. -/
theorem State.completeUpd_finish_completed (s : State) (r : Ref) (o : MailOutcome) (c : Option ExpiryCause) :
    s.Completed (s.completeUpd r o c).finish r o c := by
  have hdone : ((s.complete r o c).mailbox r).state = .done := congrArg Mailbox.state (s.complete_writes r o c).self
  have hund : (s.completeUpd r o c).state.Undecided r :=
    .of_state (s := s.complete r o c) (by rw [hdone]; decide) (by rw [hdone]; decide)
  exact (State.complete_completed o c rfl rfl).leaves (Upd.finish_leaves hund)

/-- R84: completion and pass leave every other mailbox that is not LOCAL. -/
theorem State.completeUpd_finish_other (hq : q ≠ r) (hl : s.isLocal q = false) (o : MailOutcome) (c : Option ExpiryCause) :
    (s.completeUpd r o c).finish.mailbox q = s.mailbox q := by
  have hc : s.Leaves (s.complete r o c) q := State.complete_leaves hq o c
  have hund : (s.completeUpd r o c).state.Undecided q := State.Undecided.of_mailbox (.inl hl) hc.mailbox
  exact (hc.trans (Upd.finish_leaves hund)).mailbox

theorem State.completeUpd_finish_onlyOtherFlags (s : State) (r : Ref) (o : MailOutcome) (c : Option ExpiryCause) :
    s.OnlyOtherFlags (s.completeUpd r o c).finish :=
  (s.complete_onlyOtherFlags r o c).trans (s.completeUpd r o c).finish_onlyOtherFlags

/-- Settles O26, by the state of the mailbox. -/
theorem abortGivesUpTheMailbox : Obligations.AbortGivesUpTheMailbox := by
  intro s p hin b rest
  refine ⟨fun hb => ?_, fun k hb => ⟨fun hst => ?_, fun hst => ?_, fun hst => ?_⟩⟩
  · exact ⟨_, rfl, State.takeCommand_refused .abort hin (abortBody_out rest hb)⟩
  · exact ⟨_, rfl, State.takeCommand_refused .abort hin ((abortBody_at rest hb).trans (abortChecks_notPending hst))⟩
  · have hbody := (abortBody_at (s := s.closeTransaction p) (p := p) rest hb).trans (abortChecks_sending hst)
    obtain ⟨e, hans⟩ := State.takeCommand_taken .abort hin hbody (State.putMailbox_only _ _ _) (by decide) (by decide)
    have hw := (s.closeTransaction p).putMailbox_writes ⟨p, k⟩
      { (s.closeTransaction p).mailbox ⟨p, k⟩ with abortPending := true }
    refine ⟨_, rfl, hans, ?_⟩
    rw [e]
    exact ⟨hw.self, fun r hr => hw.other hr⟩
  · have hbody := (abortBody_at (s := s.closeTransaction p) (p := p) rest hb).trans (abortChecks_waiting hst)
    obtain ⟨e, hres, htxn, hframe⟩ := State.takeCommand_passing .abort hin hbody (State.completeUpd_finish_only _ _ _ _)
      (State.completeUpd_finish_onlyOtherFlags _ _ _ _)
    have hdone := ((s.closeTransaction p).completeUpd_finish_completed ⟨p, k⟩ .aborted none).leaves
      (State.report_leaves _ p .ok _)
    refine ⟨_, rfl, ?_⟩
    rw [e]
    exact ⟨hres, htxn, hdone, fun q hq hl => State.completeUpd_finish_other (s := s.closeTransaction p) hq hl _ _, hframe⟩

end Sys2Proof.Machine
end

section
/-! O43: the round boundary of a wrap. Its mailboxes (R57, R61), the LOCAL mailbox whose hold-off it ends (R84 to R86), and
fault confinement (R44 to R46, R51). -/

namespace Sys2Proof.Machine

variable {s t u v : State} {r w q : Ref} {rec : MailRecord}

/-! ## A mailbox at a round boundary -/

/-- R57: hold-off remaining falls to 0 and stays there. -/
theorem holdOff_step (h : BitVec 8) : h - (if h == 0 then 0 else 1) = BitVec.ofNat 8 (h.toNat - 1) := by
  by_cases h0 : h = 0
  · subst h0
    rfl
  · simp only [beq_iff_eq, h0, if_false]
    bv_omega

theorem Mailbox.atRoundBoundary_queued {m : Mailbox} (h : m.state = .queued) :
    m.atRoundBoundary = { m with holdOff := BitVec.ofNat 8 (m.holdOff.toNat - 1) } := by
  rw [← holdOff_step]
  simp [Mailbox.atRoundBoundary, h]

theorem Mailbox.atRoundBoundary_of_held {m : Mailbox} (h : m.state = .held) :
    m.atRoundBoundary = { m with state := .queued, holdOff := 0 } := by
  simp [Mailbox.atRoundBoundary, h]

/-- R57: a hold-off of two rounds or more does not end at the boundary. -/
theorem Mailbox.atRoundBoundary_holdsOff {m : Mailbox}
    (h : m.state ∉ [.queued, .held] ∨ m.state = .queued ∧ 2 ≤ m.holdOff.toNat)
    (hq : m.atRoundBoundary.state = .queued) : m.atRoundBoundary.holdOff ≠ 0 := by
  rcases h with hn | ⟨hst, hh⟩
  · simp only [List.mem_cons, List.not_mem_nil, or_false, not_or] at hn
    rw [Mailbox.atRoundBoundary_eq hn.1 hn.2] at hq
    exact absurd hq hn.1
  · rw [Mailbox.atRoundBoundary_queued hst]
    bv_omega

/-- R84: a pass that is no retry leaves a mailbox that is not LOCAL, not QUEUED, or still holds off. -/
theorem State.passAt_mailbox (h : s.isLocal r = true → (s.mailbox r).state = .queued → (s.mailbox r).holdOff ≠ 0) (q : Ref) :
    (State.passAt false s q).mailbox r = s.mailbox r := by
  by_cases hq : s.isLocal q = true → s.free q = false
  · rw [State.passAt_still hq]
  · simp only [Classical.not_imp, Bool.not_eq_false] at hq
    obtain ⟨hloc, hfree⟩ := hq
    obtain ⟨hst, h0, -⟩ := (s.free_iff q).1 hfree
    have hne : r ≠ q := by
      rintro rfl
      exact h hloc hst h0
    rcases State.passAt_decides false s q with ⟨e, -⟩ | ⟨-, -, rec, e⟩
    · rw [e]
    · rw [e, s.decideLocal_other hne rec]

theorem State.localPass_mailbox (h : s.isLocal r = true → (s.mailbox r).state = .queued → (s.mailbox r).holdOff ≠ 0) :
    (s.localPass false).mailbox r = s.mailbox r :=
  State.localPass_keeps (P := fun u => u.mailbox r = s.mailbox r) false
    (fun u q hu => (State.passAt_mailbox (by rw [State.isLocal_congr (s := s) (by rw [hu]), hu]; exact h) q).trans hu) rfl

theorem State.confinementRoundBoundary_mailbox (s : State) (r : Ref) : s.confinementRoundBoundary.mailbox r = s.mailbox r :=
  s.confinementRoundBoundary_only.mailbox (by decide) r

theorem State.bankRoundBoundary_isLocal (s : State) (r : Ref) : s.bankRoundBoundary.isLocal r = s.isLocal r :=
  State.isLocal_congr (by rw [State.bankRoundBoundary_mailbox, Mailbox.atRoundBoundary_record])

/-- R57, R61: what a round boundary makes of a mailbox that no local pass decides at it. -/
theorem State.roundBoundary_mailbox
    (h : s.isLocal r = true → (s.mailbox r).atRoundBoundary.state = .queued → (s.mailbox r).atRoundBoundary.holdOff ≠ 0) :
    s.roundBoundary.mailbox r = (s.mailbox r).atRoundBoundary := by
  obtain ⟨u, hu, e⟩ := s.roundBoundary_cases
  rw [e, State.confinementRoundBoundary_mailbox, ← State.bankRoundBoundary_mailbox]
  rcases hu with rfl | rfl
  · rfl
  · exact State.localPass_mailbox (by rw [State.bankRoundBoundary_isLocal, State.bankRoundBoundary_mailbox]; exact h)

/-! ## The one LOCAL mailbox that a round boundary decides -/

/-- R85, R86: the local hand-off decision. -/
theorem State.decideLocal_localDecided (s : State) (w : Ref) (rec : MailRecord) :
    s.LocalDecided (s.decideLocal w rec) w rec := by
  refine ⟨fun hst => ?_, fun q hq => ?_⟩
  · rw [State.decideLocal_refused (Channel.receiver_of_state hst)]
    exact ⟨State.complete_completed _ _ rfl rfl, State.complete_store _ _ _ _, (s.complete_only w _ _).queue (by decide)⟩
  · have hrecv : (s.channel rec.channel).receiver = some q := by rw [hq]; rfl
    refine ⟨fun hroom => ?_, fun i hfull hi => ?_⟩
    · rw [State.decideLocal_waits hrecv (hroom.imp_right fun h => List.filter_eq_nil_iff.2 fun i _ => by simp [h i])]
      exact ⟨(s.putMailbox_writes w _).self, rfl, rfl, fun _ => rfl⟩
    · rw [State.decideLocal_handsOff hrecv hfull hi]
      exact ⟨s.handOff_completed w rec q i, (s.handOff_queue w rec q i q).trans (if_pos rfl),
        fun x hx => (s.handOff_queue w rec q i x).trans (if_neg hx), s.handOff_rx w rec q i, s.handOff_holders w rec q i,
        s.handOff_rxSlot w rec q i, s.handOff_payload w rec q i, fun j hj => s.handOff_bytes w rec q hj⟩

/-- R76: mailboxes and pending list alone decide what is blocked. -/
theorem State.blocked_frame {l : List Part} (hf : s.OnlyChanges t l) (hb : Part.boxes ∉ l) (hr : Part.refs ∉ l) (r : Ref) :
    t.blocked r = s.blocked r := by
  have hm := hf.mailbox hb
  have hl : t.sched.refs = s.sched.refs := hf.2 .refs hr
  exact State.blocked_congr (by simp only [State.earlier, hl]) (State.destination_congr (hm r))
    fun e _ => State.destination_congr (hm e)

/-- Two states that differ from a third in the same parts alone differ in those alone. -/
theorem State.OnlyChanges.between {l : List Part} (h : s.OnlyChanges t l) (g : s.OnlyChanges u l) : t.OnlyChanges u l := by
  refine ⟨g.1.trans h.1.symm, fun k hk => ?_⟩
  have ht := h.2 k hk
  have hu := g.2 k hk
  cases k
  all_goals exact Eq.trans hu (Eq.symm ht)

/-- The decision rests on channels, queues, store, pending list, round number and the mailbox itself. -/
theorem State.LocalDecided.of_same (h : s.LocalDecided t w rec) (hf : s.OnlyChanges u [.line, .boxes])
    (hl : u.line.round = s.line.round) (hm : u.mailbox w = s.mailbox w) : u.LocalDecided t w rec := by
  have hch : ∀ c, u.channel c = s.channel c := fun c => by
    have e : u.channels = s.channels := hf.2 .channels (by decide)
    simp only [State.channel, e]
  have hq := hf.queue (by decide)
  have hst : u.store = s.store := hf.2 .store (by decide)
  have hr : u.sched.refs = s.sched.refs := hf.2 .refs (by decide)
  have hfree : ∀ i, u.slotFree i = s.slotFree i := fun i => by simp only [State.slotFree, hst]
  simpa only [State.LocalDecided, State.Completed, State.LowestFree, hch, hq, hst, hr, hl, hm, hfree] using h

/-- What leaves mailbox, queues, store and RX, leaves the decision. -/
theorem State.LocalDecided.leaves (h : s.LocalDecided t w rec) (hf : t.OnlyChanges v [.fault, .engines])
    (hl : t.Leaves v w) (hrx : ∀ q, (t.engine q).flags.rx = true → (v.engine q).flags.rx = true) :
    s.LocalDecided v w rec := by
  have hq := hf.queue (by decide)
  have hst : v.store = t.store := hf.2 .store (by decide)
  have hr : v.sched.refs = t.sched.refs := hf.2 .refs (by decide)
  obtain ⟨href, hopen⟩ := h
  refine ⟨fun hc => ?_, fun q hc => ⟨fun hroom => ?_, fun i hfull hi => ?_⟩⟩
  · obtain ⟨hdone, hrest⟩ := href hc
    rw [hst]
    exact ⟨hdone.leaves hl, by simpa only [hq] using hrest⟩
  · rw [hl.mailbox, hst, hr]
    simpa only [hq] using (hopen q hc).1 hroom
  · obtain ⟨hdone, hqueue, hothers, hrxq, hstore⟩ := (hopen q hc).2 i hfull hi
    simp only [hst, hq]
    exact ⟨hdone.leaves hl, hqueue, hothers, hrx q hrxq, hstore⟩

/-- R84: a pass decides the only LOCAL mailbox of the pending list, if it is free. -/
theorem State.OnlyLocal.localPass (h : s.OnlyLocal w rec) (hfree : s.free w = true) :
    s.localPass false = s.decideLocal w rec := by
  obtain ⟨hw, hrec, hk, hothers⟩ := h
  have hpass := State.passAt_free false hrec hk hfree
  obtain ⟨before, after, hl, hnot⟩ := List.eq_append_cons_of_mem hw
  rw [← hpass]
  refine State.localPass_at hl (fun q hq hloc => ?_) (fun q hq hloc => ?_)
  · have hqw : q ≠ w := fun e => hnot (e ▸ hq)
    rw [hothers q (by rw [hl]; exact List.mem_append_left _ hq) hqw] at hloc
    cases hloc
  · rw [hpass] at hloc ⊢
    by_cases hqw : q = w
    · rw [hqw]
      exact (s.decideLocal_self w rec).1
    · rw [State.isLocal_congr (s := s) (by rw [s.decideLocal_other hqw rec]),
        hothers q (by rw [hl]; exact List.mem_append_right _ (List.mem_cons_of_mem _ hq)) hqw] at hloc
      cases hloc

theorem State.OnlyLocal.frame {l : List Part} (h : s.OnlyLocal w rec) (hf : s.OnlyChanges t l) (hb : Part.boxes ∉ l)
    (hr : Part.refs ∉ l) : t.OnlyLocal w rec := by
  have hm := hf.mailbox hb
  have hl : t.sched.refs = s.sched.refs := hf.2 .refs hr
  simpa only [State.OnlyLocal, State.isLocal, State.kind, hm, hl] using h

theorem State.OnlyLocal.bankRoundBoundary (h : s.OnlyLocal w rec) : s.bankRoundBoundary.OnlyLocal w rec := by
  obtain ⟨hw, hrec, hk, hothers⟩ := h
  refine ⟨hw, ?_, hk, fun q hq hqw => ?_⟩
  · rw [State.bankRoundBoundary_mailbox, Mailbox.atRoundBoundary_record, hrec]
  · rw [State.bankRoundBoundary_isLocal]
    exact hothers q hq hqw

/-! ## Fault confinement -/

/-- R45, R46, R51: a round boundary is a change of the fault confinement unit. -/
theorem State.confinementRoundBoundary_eq_confine (s : State) : ∃ f, s.confinementRoundBoundary = s.confine f := by
  unfold State.confinementRoundBoundary
  simp only []
  split
  · split
    all_goals exact ⟨_, rfl⟩
  · exact ⟨{ s.fault with cleanRounds := s.countRound, spoiled := false }, by simp [State.confine]⟩

theorem State.confinementRoundBoundary_rx (s : State) (q : Port) :
    (s.confinementRoundBoundary.engine q).flags.rx = (s.engine q).flags.rx := by
  obtain ⟨f, e⟩ := s.confinementRoundBoundary_eq_confine
  rw [e, State.confine_flags]

theorem State.confinementRoundBoundary_lineFollows (s : State) :
    s.LineFollows s.confinementRoundBoundary (s.confinementRoundBoundary.fault.state ≠ s.fault.state) := by
  obtain ⟨f, e⟩ := s.confinementRoundBoundary_eq_confine
  rw [e]
  exact s.confine_lineFollows f

/-- R44: outside SILENCED the boundary clears the marker. -/
theorem State.confinementRoundBoundary_talking (h : s.fault.state ≠ .silenced) :
    s.confinementRoundBoundary.fault = { s.fault with spoiled := false } := by
  simp [State.confinementRoundBoundary, h, s.countRound_of_not_silenced h]

section
variable (ha : s.member.lineState = .active) (h : s.fault.state = .silenced)
include ha h

/-- R45: a spoiled round starts the count again. -/
theorem State.confinementRoundBoundary_spoiledRound (hs : s.fault.spoiled = true) :
    s.confinementRoundBoundary.fault = { s.fault with cleanRounds := 0, spoiled := false } := by
  simp [State.confinementRoundBoundary, State.countRound, ha, h, hs]

theorem State.countRound_clean (hs : s.fault.spoiled = false) : s.countRound = s.fault.cleanRounds + 1 := by
  simp [State.countRound, ha, h, hs]

/-- R45: a clean round counts. -/
theorem State.confinementRoundBoundary_cleanRound (hs : s.fault.spoiled = false) (hn : s.fault.cleanRounds < 3) :
    s.confinementRoundBoundary.fault = { s.fault with cleanRounds := s.fault.cleanRounds + 1 } := by
  have hlt : ¬ 3 ≤ s.fault.cleanRounds := by omega
  calc s.confinementRoundBoundary.fault
      = { s.fault with cleanRounds := s.fault.cleanRounds + 1, spoiled := false } := by
        simp [State.confinementRoundBoundary, State.countRound_clean ha h hs, hlt]
    _ = _ := by rw [← hs]

/-- R46: the fourth clean round ends the silence by the recovery policy. -/
theorem State.confinementRoundBoundary_recovery (hs : s.fault.spoiled = false) (hn : s.fault.cleanRounds = 3) :
    (s.member.config.recovery = .auto → s.confinementRoundBoundary.fault
        = { window := [], state := .engaged, cleanRounds := 0, spoiled := false })
      ∧ (s.member.config.recovery = .manual → s.confinementRoundBoundary.fault
        = { s.fault with state := .readyToResume, cleanRounds := 4 }) := by
  constructor <;> intro hr
  · simp [State.confinementRoundBoundary, State.countRound_clean ha h hs, hn, h, hr]
  · calc s.confinementRoundBoundary.fault
        = { s.fault with state := .readyToResume, cleanRounds := 4, spoiled := false } := by
          simp [State.confinementRoundBoundary, State.countRound_clean ha h hs, hn, h, hr]
      _ = _ := by rw [← hs]

end

/-! ## The wrap -/

/-- A round boundary is fault confinement's, on a state that keeps fault confinement, membership and LINE flags. -/
theorem State.roundBoundary_confines (s : State) :
    ∃ u : State, s.roundBoundary = u.confinementRoundBoundary ∧ u.fault = s.fault ∧ u.member = s.member
      ∧ ∀ q, (u.engine q).flags.line = (s.engine q).flags.line := by
  obtain ⟨u, hu, e⟩ := s.roundBoundary_cases
  refine ⟨u, e, ?_⟩
  rcases hu with rfl | rfl
  · exact ⟨rfl, rfl, fun _ => rfl⟩
  · have hp := s.bankRoundBoundary.localPass_only false
    exact ⟨hp.2 .fault (by decide), hp.member (by decide) (by decide) (by decide),
      (s.bankRoundBoundary.localPass_sameSlotAndLine false).2⟩

/-- R57, R84: a boundary that ends the hold-off of a LOCAL mailbox, the only one pending and not blocked, decides it. -/
theorem State.roundBoundary_localDecided (h : s.OnlyLocal w rec) (hst : (s.mailbox w).state = .queued)
    (hh : (s.mailbox w).holdOff = 1) (hb : s.blocked w = false) :
    s.bankRoundBoundary.LocalDecided s.roundBoundary w rec := by
  have hends : allRefs.any s.holdOffEnds = true := by
    obtain ⟨-, hrec, hk, -⟩ := h
    exact List.any_eq_true.2 ⟨w, mem_allRefs w, by simp [State.holdOffEnds, State.isLocal, State.kind, hrec, hk, hst, hh]⟩
  have hfree : s.bankRoundBoundary.free w = true := by
    rw [State.free_iff, State.bankRoundBoundary_mailbox, State.bankRoundBoundary_blocked,
      Mailbox.atRoundBoundary_queued hst, hh]
    exact ⟨hst, rfl, hb⟩
  have e : s.roundBoundary = (s.bankRoundBoundary.decideLocal w rec).confinementRoundBoundary := by
    rw [← h.bankRoundBoundary.localPass hfree]
    simp [State.roundBoundary, hends]
  rw [e]
  exact (State.decideLocal_localDecided _ w rec).leaves (State.confinementRoundBoundary_only _)
    (State.confinementRoundBoundary_leaves _ w) fun q hq => by rw [State.confinementRoundBoundary_rx]; exact hq

/-- Settles O43: the wrap is the round boundary alone, and of the state before it only the line unit has moved. -/
theorem roundBoundaryServesMailboxesAndSilence : Obligations.RoundBoundaryServesMailboxesAndSilence := by
  intro s hact hidle hturn hfirst haddr
  have hexec : exec .turnBegins s = .next s.advanceTurn.roundBoundary := by
    rw [execTurnBegins_eq s (.inl hact) hidle, hfirst, ← s.beginTurnIdle_wrap hturn haddr]
    rfl
  obtain ⟨u, hu, hfault, hmember, hline⟩ := s.advanceTurn.roundBoundary_confines
  have hat := s.advanceTurn_only
  have hf : u.fault = s.fault := hfault.trans (hat.2 .fault (by decide))
  have hm : u.member = s.member := hmember.trans s.advanceTurn_member
  have hbox := hat.mailbox (by decide)
  have ha : u.member.lineState = .active := by rw [hm]; exact hact
  refine ⟨_, hexec, fun r hr => ?_, fun w rec v honly hst hh hb hv hround hbv => ?_, ?_⟩
  · have hholds : s.advanceTurn.isLocal r = true → (s.advanceTurn.mailbox r).atRoundBoundary.state = .queued →
        (s.advanceTurn.mailbox r).atRoundBoundary.holdOff ≠ 0 := by
      rw [State.isLocal_congr (s := s) (by rw [hbox]), hbox]
      intro hloc
      exact Mailbox.atRoundBoundary_holdsOff (hr.resolve_left (by rw [hloc]; decide))
    rw [State.roundBoundary_mailbox hholds, hbox]
    split
    next hq => exact Mailbox.atRoundBoundary_queued hq
    next hh => exact Mailbox.atRoundBoundary_of_held hh
    next hq hh => exact Mailbox.atRoundBoundary_eq hq hh
  · have hdec := State.roundBoundary_localDecided (honly.frame hat (by decide) (by decide)) (by rw [hbox, hst])
      (by rw [hbox, hh]) (by rw [State.blocked_frame hat (by decide) (by decide), hb])
    have hbank : s.OnlyChanges s.advanceTurn.bankRoundBoundary [.line, .boxes] :=
      (hat.mono (by decide)).seq (State.bankRoundBoundary_only _) (by decide)
    refine hdec.of_same (hbank.between hv) ?_ ?_
    · rw [hround, (State.bankRoundBoundary_only _).line (by decide), s.advanceTurn_line_wrap hturn]
    · rw [hbv, State.bankRoundBoundary_mailbox, hbox, Mailbox.atRoundBoundary_queued hst, hh]
      rfl
  · rw [hu, ← hf, ← hm]
    refine ⟨State.confinementRoundBoundary_talking, State.confinementRoundBoundary_spoiledRound ha,
      State.confinementRoundBoundary_cleanRound ha, fun hs hclean hn => ?_, fun q => ?_⟩
    · obtain ⟨hauto, hmanual⟩ := State.confinementRoundBoundary_recovery ha hs hclean hn
      split
      next hr => exact hauto hr
      next hr => exact hmanual hr
    · have hq := u.confinementRoundBoundary_lineFollows q
      rwa [hline q, hat.engine (by decide)] at hq

end Sys2Proof.Machine
end

section
/-! O42: the own turn. The choice by the share policy (R79 to R81), the outbound entry that a REMOTE mailbox uses (R93),
the frame that is handed on (R82), and the turn in which all this happens (R8, R12). -/

namespace Sys2Proof.Machine

variable {s t u : State} {r : Ref} {rec : MailRecord}

/-! ## The first of a list -/

/-- R75: the pending list, cut at one of its references. -/
theorem State.refs_eq_earlier_append (h : r ∈ s.sched.refs) : ∃ later, s.sched.refs = s.earlier r ++ r :: later := by
  obtain ⟨front, later, hl, hr⟩ := List.eq_append_cons_of_mem h
  have hne : ∀ q ∈ front, (q != r) = true := fun q hq => bne_iff_ne.2 fun e => hr (e ▸ hq)
  have he : s.earlier r = front := by
    rw [State.earlier, hl, List.takeWhile_append_of_pos hne, List.takeWhile_cons_of_neg (by simp), List.append_nil]
  exact ⟨later, he ▸ hl⟩

/-- R79, R80: a key below those in front of it and not above those behind it is the lowest, and the earliest such. -/
theorem State.lowestKey_append_cons {front back : List Ref} (hf : ∀ q ∈ front, s.key r < s.key q)
    (hb : ∀ q ∈ back, s.key r ≤ s.key q) : s.lowestKey (front ++ r :: back) = some r := by
  induction front with
  | nil =>
    simp only [List.nil_append, State.lowestKey]
    split
    next b h => rw [if_neg (Nat.not_lt.2 (hb b (s.lowestKey_mem h)))]
    next => rfl
  | cons a front ih =>
    obtain ⟨ha, hf⟩ := List.forall_mem_cons.1 hf
    simp only [List.cons_append, State.lowestKey, ih hf, if_pos ha]

/-- R79, R80: the mailbox with the lowest key, of those on the pending list that `among` admits. -/
theorem State.LowestKeyOf.lowestKey {among : Ref → Prop} {f : Ref → Bool} (h : s.LowestKeyOf among r)
    (hf : ∀ q, f q = true ↔ among q ∧ s.eligible q = true) (hr : r ∈ s.sched.refs) (hfr : f r = true) :
    s.lowestKey (s.sched.refs.filter f) = some r := by
  obtain ⟨hall, hearl⟩ := h
  obtain ⟨later, hl⟩ := State.refs_eq_earlier_append hr
  have hbehind : ∀ q ∈ later.filter f, s.key r ≤ s.key q := fun q hq => by
    obtain ⟨hq, hfq⟩ := List.mem_filter.1 hq
    obtain ⟨ha, he⟩ := (hf q).1 hfq
    exact hall q (by rw [hl]; simp [hq]) ha he
  have hfront : ∀ q ∈ (s.earlier r).filter f, s.key r < s.key q := fun q hq => by
    obtain ⟨hq, hfq⟩ := List.mem_filter.1 hq
    obtain ⟨ha, he⟩ := (hf q).1 hfq
    exact hearl q hq ha he
  rw [hl, List.filter_append, List.filter_cons_of_pos hfr]
  exact State.lowestKey_append_cons hfront hbehind

/-! ## The choice -/

theorem State.eligiblesOf_eq (s : State) (p : Port) :
    s.eligiblesOf p = s.sched.refs.filter (fun q => q.port == p && s.eligible q) := by
  rw [State.eligiblesOf, State.eligibles, List.filter_filter]

theorem State.choiceOf_none {p : Port} (h : s.eligiblesOf p = []) : s.choiceOf p = none := by
  unfold State.choiceOf
  split <;> rw [h] <;> rfl

/-- R80, R81: the port's choice under transmit order KEY. -/
theorem State.choiceOf_key (ho : s.order r.port = .key) (hr : r ∈ s.sched.refs) (he : s.eligible r = true)
    (h : s.LowestKeyOf (fun q => q.port = r.port) r) : s.choiceOf r.port = some r := by
  simp only [State.choiceOf, ho, s.eligiblesOf_eq]
  exact h.lowestKey (fun q => by simp) hr (by simp [he])

/-- R80, R81: the port's choice under transmit order ARRIVAL. -/
theorem State.choiceOf_arrival (ho : s.order r.port = .arrival) (hr : r ∈ s.sched.refs) (he : s.eligible r = true)
    (h : ∀ q ∈ s.earlier r, q.port = r.port → s.eligible q = false) : s.choiceOf r.port = some r := by
  obtain ⟨later, hl⟩ := State.refs_eq_earlier_append hr
  have hfront : (s.earlier r).filter (fun q => q.port == r.port && s.eligible q) = [] :=
    List.filter_eq_nil_iff.2 fun q hq => by simpa using h q hq
  simp only [State.choiceOf, ho, s.eligiblesOf_eq]
  rw [hl, List.filter_append, hfront, List.nil_append, List.filter_cons_of_pos (by simp [he]), List.head?_cons]

/-- R79: the choice under share policy KEY, which leaves the rotation pointer. -/
theorem State.choose_key (hs : s.member.config.share = .key) (hr : r ∈ s.sched.refs) (he : s.eligible r = true)
    (h : s.LowestKeyOf (fun _ => True) r) : s.choose = some (r, s.sched.rotation) := by
  have hk : s.lowestKey s.eligibles = some r := h.lowestKey (fun q => by simp) hr he
  simp [State.choose, hs, hk]

/-- R80: `r` stands at the first port from the rotation pointer on that has an eligible mailbox. -/
def State.AtServedPort (s : State) (r : Ref) : Prop :=
  r.port = s.sched.rotation
    ∨ (r.port = s.sched.rotation + 1 ∧ s.eligiblesOf s.sched.rotation = [])
    ∨ (r.port = s.sched.rotation + 2 ∧ s.eligiblesOf s.sched.rotation = []
        ∧ s.eligiblesOf (s.sched.rotation + 1) = [])

/-- R80: the choice under share policy ROTATE is that of the first port with an eligible mailbox, and the pointer moves
past this port. -/
theorem State.choose_rotate (hs : s.member.config.share = .rotate) (hp : s.AtServedPort r)
    (hc : s.choiceOf r.port = some r) : s.choose = some (r, r.port + 1) := by
  simp only [State.choose, hs, rotationFrom]
  rcases hp with hp | ⟨hp, h0⟩ | ⟨hp, h0, h1⟩
  · simp [← hp, hc]
  · simp [State.choiceOf_none h0, ← hp, hc]
  · simp [State.choiceOf_none h0, State.choiceOf_none h1, ← hp, hc]

theorem State.lowestKey_congr (h : ∀ q, t.key q = s.key q) (l : List Ref) : t.lowestKey l = s.lowestKey l := by
  induction l with
  | nil => rfl
  | cons a l ih => simp only [State.lowestKey, ih, h]

/-- The line unit has no part in the choice. -/
theorem State.OnlyChanges.choose (h : s.OnlyChanges t [.line]) : t.choose = s.choose := by
  have hm := h.member (by decide) (by decide) (by decide)
  have hrefs : t.sched.refs = s.sched.refs := h.2 .refs (by decide)
  have hrot : t.sched.rotation = s.sched.rotation := h.2 .rotation (by decide)
  have hord : t.sched.orders = s.sched.orders := h.2 .orders (by decide)
  have he : t.eligible = s.eligible := funext (h.eligible (by decide) (by decide))
  have hk : t.lowestKey = s.lowestKey := funext (State.lowestKey_congr fun q => by
    simp only [State.key, h.mailbox (by decide)])
  have hc : t.choiceOf = s.choiceOf := funext fun p => by
    simp only [State.choiceOf, State.order, hord, State.eligiblesOf, State.eligibles, hrefs, he, hk]
  simp only [State.choose, State.eligibles, hm, hrefs, hrot, he, hk, hc]

/-! ## The frame -/

/-- R93, R95: the entry that a choice uses is that of the pair, or a new one with bit 0 and the fresh flag. -/
theorem State.outboundEntry_spec (s : State) (n : NodeAddr) (c : ChannelNo) :
    (s.outboundEntry n c).node = n ∧ (s.outboundEntry n c).channel = c
      ∧ (s.outboundEntry n c ∈ s.seq.outbound
          ∨ (∀ x ∈ s.seq.outbound, ¬ (x.node = n ∧ x.channel = c))
              ∧ (s.outboundEntry n c).nextBit = false ∧ (s.outboundEntry n c).fresh = true) := by
  unfold State.outboundEntry
  cases h : s.seq.outbound.find? (·.isFor n c) with
  | some e =>
    obtain ⟨hn, hc⟩ : e.node = n ∧ e.channel = c := by simpa [OutEntry.isFor] using List.find?_some h
    exact ⟨hn, hc, .inl (List.mem_of_find?_eq_some h)⟩
  | none => exact ⟨rfl, rfl, .inr ⟨by simpa [OutEntry.isFor] using h, rfl, rfl⟩⟩

/-- R93: the used entry stands at the front, and the inbound table has no part in the use. -/
theorem State.useOutbound_seq (s : State) (n : NodeAddr) (c : ChannelNo) :
    (s.useOutbound n c).seq.outbound.head? = some (s.outboundEntry n c)
      ∧ (s.useOutbound n c).seq.inbound = s.seq.inbound := ⟨rfl, rfl⟩

theorem State.markSending_only (s : State) (r : Ref) : s.OnlyChanges (s.markSending r) [.boxes] := s.putMailbox_only r _

/-- R58: the chosen mailbox is SENDING with one more attempt. -/
theorem State.markSending_mailbox (s : State) (r q : Ref) :
    (s.markSending r).mailbox q
      = if q = r then { s.mailbox r with state := .sending, attempts := (s.mailbox r).attempts + 1 }
        else s.mailbox q := by
  simp only [State.markSending, State.putMailbox_mailbox]

/-- R58, R93: SENDING has no part in which entry of the outbound table the pair has. -/
theorem State.markSending_outboundEntry (s : State) (r : Ref) (n : NodeAddr) (c : ChannelNo) :
    (s.markSending r).outboundEntry n c = s.outboundEntry n c := rfl

/-- R82: handing on is R58, the use of the outbound table by a REMOTE mailbox, and the start of the frame. -/
theorem State.handFrame_cases (s : State) (r : Ref) (rec : MailRecord) :
    ∃ v : State, s.handFrame r rec
        = v.startFrame (buildFrame r s.member.config.nodeAddress rec (s.outboundEntry rec.dest rec.channel))
      ∧ (∀ q, v.mailbox q = (s.markSending r).mailbox q)
      ∧ (rec.kind = .remote → v.seq = ((s.markSending r).useOutbound rec.dest rec.channel).seq)
      ∧ (rec.kind ≠ .remote → v.seq = s.seq) := by
  unfold State.handFrame
  simp only []
  split
  next hk => exact ⟨_, rfl, fun _ => rfl, fun _ => rfl, fun h => absurd (beq_iff_eq.1 hk) h⟩
  next hk => exact ⟨_, rfl, fun _ => rfl, fun h => absurd (beq_iff_eq.2 h) hk, fun _ => rfl⟩

/-- R13, R58, R82, R93: what is handed on. -/
theorem State.handFrame_hands (s : State) (r : Ref) (rec : MailRecord) : s.HandsFrame (s.handFrame r rec) r rec := by
  obtain ⟨v, e, hbox, hremote, hother⟩ := s.handFrame_cases r rec
  obtain ⟨hnode, hchan, hentry⟩ := s.outboundEntry_spec rec.dest rec.channel
  obtain ⟨hhead, hin⟩ := (s.markSending r).useOutbound_seq rec.dest rec.channel
  have hb : ∀ q, (s.handFrame r rec).mailbox q = (s.markSending r).mailbox q := fun q => by rw [e]; exact hbox q
  have hq : (s.handFrame r rec).seq = v.seq := by rw [e]; rfl
  refine ⟨?_, fun q hne => ?_, by rw [e]; rfl, by rw [e]; rfl, _, by rw [e]; rfl, by rw [e]; rfl, rfl, rfl, rfl,
    fun hk => ⟨?_, ?_⟩, fun hk => ⟨_, ?_, hnode, hchan, ?_, ?_, hentry⟩⟩
  · rw [hb, s.markSending_mailbox, if_pos rfl]
  · rw [hb, s.markSending_mailbox, if_neg hne]
  · simp [buildFrame, hk]
  · rw [hq, hother (by rw [hk]; decide)]
  · simp [buildFrame, hk]
  · rw [hq, hremote hk, hhead, State.markSending_outboundEntry]
  · rw [hq, hremote hk, hin, (s.markSending_only r).2 .seq (by decide)]

/-- What is handed on does not depend on parts that the hand-over does not read. -/
theorem State.HandsFrame.of_only {l : List Part} (h : u.HandsFrame t r rec) (hf : s.OnlyChanges u l)
    (hb : Part.boxes ∉ l) (hc : Part.config ∉ l) (hq : Part.seq ∉ l) : s.HandsFrame t r rec := by
  have hconf : u.member.config = s.member.config := hf.2 .config hc
  have hseq : u.seq = s.seq := hf.2 .seq hq
  simpa only [State.HandsFrame, hf.mailbox hb, hconf, hseq] using h

/-! ## The own turn -/

/-- R78, R82: where the node may transmit, own turn begins hands on the choice. -/
theorem State.ownTurnBegins_chosen {p : Port} (hm : s.mayTransmit = true) (hc : s.choose = some (r, p))
    (hrec : (s.mailbox r).record = some rec) : s.ownTurnBegins = (s.putRotation p).handFrame r rec := by
  simp [State.ownTurnBegins, hm, hc, hrec]

/-- R8: a turn inside a round that is the own one. -/
theorem State.beginTurnIdle_own (hw : s.line.turn ≠ 31) (ho : s.member.config.nodeAddress = s.line.turn + 1) :
    s.beginTurnIdle = s.advanceTurn.ownTurnBegins := by
  have hown : s.advanceTurn.isOwnTurn = true := by
    rw [State.isOwnTurn, s.advanceTurn_line_inside hw, s.advanceTurn_member, ho, beq_iff_eq]
  have hwf : (s.line.turn == 31) = false := by simpa using hw
  simp only [State.beginTurnIdle, hwf, hown, Bool.false_and, Bool.false_eq_true, if_false, if_true]

/-- R12: the first turn after sync is the own one of node 0. -/
theorem State.firstTurnBegins_own (ho : s.member.config.nodeAddress = 0) :
    s.firstTurnBegins = s.startFirstTurn.ownTurnBegins := by
  have hown : s.startFirstTurn.isOwnTurn = true := by
    simp [State.isOwnTurn, State.startFirstTurn, ho]
  simp [State.firstTurnBegins, hown]

/-- The own turn is the next one inside a round, or the first turn due after sync by the idle count (log 27). -/
def State.OwnTurnNext (s : State) (own : NodeAddr) : Prop :=
  (s.line.firstTurnDue = false ∧ s.line.turn ≠ 31 ∧ own = s.line.turn + 1) ∨ (s.line.firstTurnDue = true ∧ own = 0)

/-- `u` is `s` with the own turn begun: of the line unit the turn counter has moved, and the round number has not. -/
structure State.OwnTurnBegun (s u : State) (own : NodeAddr) : Prop where
  frame : s.OnlyChanges u [.line]
  turn : u.line.turn = own
  round : u.line.round = s.line.round
  notDue : u.line.firstTurnDue = false

/-- R6, R8, R12: TURN_BEGINS at the own turn begins the turn, and raises own turn begins in it. -/
theorem execTurnBegins_own {own : NodeAddr} (ha : s.member.lineState = .active) (hi : s.line.activity = .idle)
    (ho : own = s.member.config.nodeAddress) (ht : s.OwnTurnNext own) :
    ∃ u, exec .turnBegins s = .next u.ownTurnBegins ∧ s.OwnTurnBegun u own := by
  rw [execTurnBegins_eq s (.inl ha) hi]
  rcases ht with ⟨hd, hw, hn⟩ | ⟨hd, hn⟩
  · rw [hd, if_neg (by decide), State.beginTurnIdle_own hw (ho.symm.trans hn)]
    have hl := s.advanceTurn_line_inside hw
    exact ⟨_, rfl, s.advanceTurn_only, by rw [hl, hn], by rw [hl], by rw [hl]; exact hd⟩
  · rw [hd, if_pos rfl, State.firstTurnBegins_own (ho.symm.trans hn)]
    exact ⟨_, rfl, s.startFirstTurn_only, hn.symm, rfl, rfl⟩

/-- R78: the begin of the own turn does not change whether the node may transmit. -/
theorem State.OwnTurnBegun.mayTransmit {own : NodeAddr} (h : s.OwnTurnBegun u own) (hm : s.mayTransmit = true) :
    u.mayTransmit = true := by
  have hmem := h.frame.member (by decide) (by decide) (by decide)
  have hfault : u.fault = s.fault := h.frame.2 .fault (by decide)
  rw [State.mayTransmit_iff] at hm ⊢
  simpa only [State.mode, hmem, hfault, h.round] using hm

/-- R78, R82: in the own turn the choice of the state before it is handed on. -/
theorem State.OwnTurnBegun.hands {own : NodeAddr} {p : Port} (h : s.OwnTurnBegun u own) (hm : s.mayTransmit = true)
    (hc : s.choose = some (r, p)) (hrec : (s.mailbox r).record = some rec) :
    s.HandsFrame u.ownTurnBegins r rec
      ∧ u.ownTurnBegins.line.turn = own ∧ u.ownTurnBegins.line.round = s.line.round
      ∧ u.ownTurnBegins.line.firstTurnDue = false
      ∧ u.ownTurnBegins.sched.rotation = p
      ∧ s.OnlyChanges u.ownTurnBegins [.line, .boxes, .seq, .rotation] := by
  have e : u.ownTurnBegins = (u.putRotation p).handFrame r rec :=
    State.ownTurnBegins_chosen (h.mayTransmit hm) (h.frame.choose.trans hc) (by rw [h.frame.mailbox (by decide), hrec])
  have hrot : s.OnlyChanges (u.putRotation p) [.line, .rotation] :=
    (h.frame.mono (by decide)).seq (u.putRotation_only p) (by decide)
  obtain ⟨hturn, hround, hdue⟩ := u.ownTurnBegins_turn
  refine ⟨?_, hturn.trans h.turn, hround.trans h.round, hdue.trans h.notDue, ?_,
    (h.frame.mono (by decide)).seq u.ownTurnBegins_only (by decide)⟩
  · rw [e]
    exact ((u.putRotation p).handFrame_hands r rec).of_only hrot (by decide) (by decide) (by decide)
  · rw [e]
    exact ((u.putRotation p).handFrame_only r rec).2 .rotation (by decide)

/-- A part that holds what it held need not be named. -/
theorem State.OnlyChanges.of_same {k : Part} {l m : List Part} (h : s.OnlyChanges t m) (hk : k.Same s t)
    (hm : ∀ j ∈ m, j = k ∨ j ∈ l) : s.OnlyChanges t l :=
  ⟨h.1, fun j hj => by
    by_cases hjk : j = k
    · rw [hjk]; exact hk
    · exact h.2 j fun hjm => (hm j hjm).elim hjk hj⟩

/-- Settles O42: the share policy gives the choice, and the own turn that begins hands it on. -/
theorem ownTurnSendsTheChosenFrame : Obligations.OwnTurnSendsTheChosenFrame := by
  intro s r rec own hact hfull hidle hfault hown hnext hr he hrec
  have hmay : s.mayTransmit = true := s.mayTransmit_iff.2 ⟨hact, hfull, hfault⟩
  obtain ⟨u, hexec, hu⟩ := execTurnBegins_own hact hidle hown hnext
  refine ⟨fun hshare hlow => ?_, fun hshare hport hkey harr => ?_⟩
  · obtain ⟨hh, ht, hn, hd, hrot, hf⟩ := hu.hands hmay (State.choose_key hshare hr he hlow) hrec
    exact ⟨_, hexec, hh, ht, hn, hd, hf.of_same (k := .rotation) hrot (by decide)⟩
  · have hc : s.choiceOf r.port = some r := by
      cases ho : s.order r.port with
      | key => exact State.choiceOf_key ho hr he (hkey ho)
      | arrival => exact State.choiceOf_arrival ho hr he (harr ho)
    exact ⟨_, hexec, hu.hands hmay (State.choose_rotate hshare hport hc) hrec⟩

end Sys2Proof.Machine
end

section
/-! O44: the use of the sequence tables. An entry that the pair has is found and moved to the front (R92, R93, R98); a pair
without one gets a new entry, for which a full table gives up its least recently used entry, or the least recently used
one that is not busy (R95, R101); and what the sequence check makes of a frame (R98). -/

namespace Sys2Proof.Machine

variable {s : State} {m : NodeAddr} {c : ChannelNo}

/-! ## An entry by its key -/

theorem InEntry.isFor_iff (e : InEntry) (d : NodeAddr) (c : ChannelNo) :
    e.isFor d c = true ↔ e.node = d ∧ e.channel = c := by
  simp [InEntry.isFor]

/-- R92: where no two entries of the outbound table have one key, the pair of an entry picks out this entry. -/
theorem State.SequenceSound.outbound_isFor_iff (h : s.SequenceSound) {e : OutEntry} (he : e ∈ s.seq.outbound)
    (hn : e.node = m) (hc : e.channel = c) : ∀ x ∈ s.seq.outbound, x.isFor m c = true ↔ x = e := by
  obtain ⟨hkeys, -, -, -⟩ := h
  intro x hx
  rw [x.isFor_iff, ← hn, ← hc, ← Prod.mk.injEq]
  exact ⟨fun hkey => List.inj_on_of_nodup_map hkeys hx he hkey, congrArg fun y : OutEntry => (y.node, y.channel)⟩

/-- R92: where no two entries of the inbound table have one key, the pair of an entry picks out this entry. -/
theorem State.SequenceSound.inbound_isFor_iff (h : s.SequenceSound) {e : InEntry} (he : e ∈ s.seq.inbound)
    (hn : e.node = m) (hc : e.channel = c) : ∀ x ∈ s.seq.inbound, x.isFor m c = true ↔ x = e := by
  obtain ⟨-, hkeys, -, -⟩ := h
  intro x hx
  rw [x.isFor_iff, ← hn, ← hc, ← Prod.mk.injEq]
  exact ⟨fun hkey => List.inj_on_of_nodup_map hkeys hx he hkey, congrArg fun y : InEntry => (y.node, y.channel)⟩

/-- A list searched for its one element with `p`: the search finds it, and the elements without `p` are the others. -/
theorem find?_filter_of_unique {α : Type} [DecidableEq α] {p : α → Bool} {l : List α} {e : α} (he : e ∈ l)
    (h : ∀ x ∈ l, p x = true ↔ x = e) :
    l.find? p = some e ∧ l.any p = true ∧ l.filter (fun x => !p x) = l.filter (· ≠ e) := by
  have hpe : p e = true := (h e he).2 rfl
  refine ⟨?_, List.any_eq_true.2 ⟨e, he, hpe⟩, List.filter_congr fun x hx => ?_⟩
  · obtain ⟨x, hx⟩ := Option.isSome_iff_exists.1 (List.find?_isSome.2 ⟨e, he, hpe⟩)
    rw [hx, (h x (List.mem_of_find?_eq_some hx)).1 (List.find?_some hx)]
  · rw [Bool.eq_iff_iff, Bool.not_eq_true', ← Bool.not_eq_true, decide_eq_true_iff]
    exact not_congr (h x hx)

/-- A list searched for a `p` that none of its elements has. -/
theorem find?_any_of_none {α : Type} {p : α → Bool} {l : List α} (h : ∀ x ∈ l, ¬ p x = true) :
    l.find? p = none ∧ l.any p = false :=
  ⟨List.find?_eq_none.2 h, List.any_eq_false.2 h⟩

/-! ## The outbound table -/

/-- In recency order, the least recently used of the elements with `p` is the one behind which none has `p`. -/
theorem eraseLastP_append_cons {α : Type} {p : α → Bool} {front back : List α} {e : α} (he : p e = true)
    (hb : ∀ x ∈ back, ¬ p x = true) : eraseLastP p (front ++ e :: back) = front ++ back := by
  have hrev : (front ++ e :: back).reverse = back.reverse ++ e :: front.reverse := by simp
  have hback : ∀ x ∈ back.reverse, ¬ p x = true := fun x hx => hb x (List.mem_reverse.1 hx)
  rw [eraseLastP, hrev, List.eraseP_append_right _ hback, List.eraseP_cons_of_pos he]
  simp

/-- R95: a table with a free place has room. -/
theorem State.roomOutbound_of_lt (h : s.seq.outbound.length < 32) : s.roomOutbound = s.seq.outbound := if_pos h

/-- R95: a full table gives up its entry that is not busy and has only busy ones behind it. -/
theorem State.roomOutbound_of_full {front back : List OutEntry} {e : OutEntry} (h : 32 ≤ s.seq.outbound.length)
    (hl : s.seq.outbound = front ++ e :: back) (he : s.busyEntry e = false)
    (hb : ∀ x ∈ back, s.busyEntry x = true) : s.roomOutbound = front ++ back := by
  rw [State.roomOutbound, if_neg (show ¬ s.seq.outbound.length < tablePlaces from Nat.not_lt.2 h), hl]
  exact eraseLastP_append_cons (by simp [he]) fun x hx => by simp [hb x hx]

/-- R92, R93: the entry of the pair moves to the front, and the others keep their order behind it. -/
theorem State.useOutbound_of_mem {e : OutEntry} (he : e ∈ s.seq.outbound)
    (h : ∀ x ∈ s.seq.outbound, x.isFor m c = true ↔ x = e) :
    (s.useOutbound m c).seq.outbound = e :: s.seq.outbound.filter (· ≠ e) := by
  obtain ⟨hfind, hany, hfilter⟩ := find?_filter_of_unique he h
  simp only [State.useOutbound, State.outboundEntry, State.putSeq_seq, hfind, hany, hfilter, if_true, Option.getD_some]

/-- R93, R95: a pair without an entry gets one with bit 0 and the fresh flag, in front of what makes room for it. -/
theorem State.useOutbound_of_none (h : ∀ x ∈ s.seq.outbound, ¬ x.isFor m c = true) :
    (s.useOutbound m c).seq.outbound
      = { node := m, channel := c, nextBit := false, fresh := true } :: s.roomOutbound := by
  obtain ⟨hfind, hany⟩ := find?_any_of_none h
  simp only [State.useOutbound, State.outboundEntry, State.putSeq_seq, hfind, hany, Bool.false_eq_true, if_false,
    Option.getD_none]

/-! ## The inbound table -/

/-- R101: only a table with all its places taken gives up its least recently used entry. -/
theorem State.roomInbound_of_le (h : s.seq.inbound.length ≤ 32) :
    s.roomInbound = if s.seq.inbound.length = 32 then s.seq.inbound.dropLast else s.seq.inbound := by
  unfold State.roomInbound tablePlaces
  split
  next hlt => rw [if_neg (Nat.ne_of_lt hlt)]
  next hge => rw [if_pos (Nat.le_antisymm h (Nat.not_lt.1 hge))]

variable {bit fresh : Bool}

/-- R98: the entry of the pair takes the frame's bit on a set fresh flag and moves to the front; the frame's bit is
compared with what it then expects. -/
theorem State.sequenceCheck_of_mem {e : InEntry} (he : e ∈ s.seq.inbound)
    (h : ∀ x ∈ s.seq.inbound, x.isFor m c = true ↔ x = e) :
    (s.sequenceCheck m c bit fresh).1.seq.inbound
        = { e with expected := if fresh then bit else e.expected } :: s.seq.inbound.filter (· ≠ e)
      ∧ ((s.sequenceCheck m c bit fresh).2 = true ↔ fresh = false ∧ e.expected ≠ bit) := by
  obtain ⟨hfind, hany, hfilter⟩ := find?_filter_of_unique he h
  have hentry : s.checkedEntry m c bit fresh = { e with expected := if fresh then bit else e.expected } := by
    simp only [State.checkedEntry, hfind]
    cases fresh <;> rfl
  refine ⟨?_, ?_⟩
  · simp only [State.sequenceCheck, State.putSeq_seq, hentry, hany, hfilter, if_true]
  · simp only [State.sequenceCheck, hentry]
    cases fresh <;> simp

/-- R98, R101: for a pair without an entry the frame is new, and the entry created expects its bit. -/
theorem State.sequenceCheck_of_none (h : ∀ x ∈ s.seq.inbound, ¬ x.isFor m c = true) :
    (s.sequenceCheck m c bit fresh).2 = false
      ∧ (s.sequenceCheck m c bit fresh).1.seq.inbound
          = { node := m, channel := c, expected := bit } :: s.roomInbound := by
  obtain ⟨hfind, hany⟩ := find?_any_of_none h
  simp only [State.sequenceCheck, State.checkedEntry, State.putSeq_seq, hfind, hany, bne_self_eq_false,
    Bool.false_eq_true, if_false, and_self]

/-- Settles O44: each table, for a pair that has an entry and for one that has none. -/
theorem sequenceTablesByUse : Obligations.SequenceTablesByUse := by
  intro s m c hsound
  have ⟨_, _, hplaces, _⟩ := hsound
  refine ⟨fun e he hn hc => State.useOutbound_of_mem he (hsound.outbound_isFor_iff he hn hc), fun hnone => ?_,
    fun bit fresh => ⟨fun e he hn hc => State.sequenceCheck_of_mem he (hsound.inbound_isFor_iff he hn hc),
      fun hnone => ?_, rfl⟩⟩
  · have huse := State.useOutbound_of_none fun x hx => mt (x.isFor_iff m c).1 (hnone x hx)
    refine ⟨fun hroom => ?_, fun front back e hfull hl he hback => ?_⟩
    · rw [huse, State.roomOutbound_of_lt hroom]
    · rw [huse, State.roomOutbound_of_full hfull hl he hback]
  · obtain ⟨hnew, htable⟩ := State.sequenceCheck_of_none fun x hx => mt (x.isFor_iff m c).1 (hnone x hx)
    exact ⟨hnew, by rw [htable, State.roomInbound_of_le hplaces]⟩

end Sys2Proof.Machine
end

section
/-! O55, the tables: channels, sequence tables and acceptance entries are sound after every step. Of the sequence tables
only their keys are spoken of: a use brings the key of the pair to the front of a part of the table that has it no more
(R93, R98), and the other events change no key or remove entries. A full outbound table always gives up an entry, since
the twelve mailboxes hold no more than twelve entries busy (R94, R95). -/

namespace Sys2Proof.Machine

/-! ## The keys of the sequence tables -/

/-- R92: the keys of the outbound table, in its order. -/
def SequenceUnit.outKeys (q : SequenceUnit) : List (NodeAddr × ChannelNo) := q.outbound.map fun e => (e.node, e.channel)

/-- R92: the keys of the inbound table, in its order. -/
def SequenceUnit.inKeys (q : SequenceUnit) : List (NodeAddr × ChannelNo) := q.inbound.map fun e => (e.node, e.channel)

/-- Channel table, sequence tables and acceptance table are sound, and where `bounded` holds the outbound table has no
more entries than places. -/
structure State.TablesSafe (bounded : Prop) (s : State) : Prop where
  channels : s.ChannelsSound
  entries : s.EntriesSound
  outKeys : s.seq.outKeys.Nodup
  outPlaces : bounded → s.seq.outKeys.length ≤ tablePlaces
  inKeys : s.seq.inKeys.Nodup
  inPlaces : s.seq.inKeys.length ≤ tablePlaces
  owned : ∀ k ∈ s.seq.inKeys, (s.channel k.2).owner ≠ none

variable {s t : State} {bounded : Prop} {n : NodeAddr} {c : ChannelNo} {p : Port}

theorem State.tablesSafe_iff :
    s.TablesSafe bounded
      ↔ s.ChannelsSound ∧ s.SequenceSound ∧ s.EntriesSound ∧ (bounded → s.seq.outbound.length ≤ tablePlaces) := by
  have hout : s.seq.outKeys.length = s.seq.outbound.length := List.length_map _
  have hin : s.seq.inKeys.length = s.seq.inbound.length := List.length_map _
  have howned : (∀ k ∈ s.seq.inKeys, (s.channel k.2).owner ≠ none)
      ↔ ∀ e ∈ s.seq.inbound, (s.channel e.channel).owner ≠ none := List.forall_mem_map
  constructor
  · rintro ⟨hc, he, ho, hop, hi, hip, hown⟩
    exact ⟨hc, ⟨ho, hi, hin ▸ hip, howned.1 hown⟩, he, hout ▸ hop⟩
  · rintro ⟨hc, ⟨ho, hi, hip, hown⟩, he, hop⟩
    exact ⟨hc, he, ho, hout ▸ hop, hi, hin ▸ hip, howned.2 hown⟩

/-- The tables are sound as far as their keys, the channels and the acceptance entries are as they were. -/
theorem State.TablesSafe.of_keys (h : s.TablesSafe bounded) (hc : t.channels = s.channels) (he : t.entries = s.entries)
    (ho : t.seq.outKeys = s.seq.outKeys) (hi : t.seq.inKeys = s.seq.inKeys) : t.TablesSafe bounded := by
  have hch : ∀ c, t.channel c = s.channel c := fun c => by simp only [State.channel, hc]
  have hen : ∀ i, t.entry i = s.entry i := fun i => by simp only [State.entry, he]
  refine ⟨fun c => ?_, fun i => ?_, ho ▸ h.outKeys, ho ▸ h.outPlaces, hi ▸ h.inKeys, hi ▸ h.inPlaces, fun k hk => ?_⟩
  · rw [hch]; exact h.channels c
  · rw [hen]; exact h.entries i
  · rw [hch]; exact h.owned k (hi ▸ hk)

theorem State.TablesSafe.congr (h : s.TablesSafe bounded) (hs : t.seq = s.seq) (hc : t.channels = s.channels)
    (he : t.entries = s.entries) : t.TablesSafe bounded := h.of_keys hc he (by rw [hs]) (by rw [hs])

theorem State.TablesSafe.frame {l : List Part} (h : s.TablesSafe bounded) (hf : s.OnlyChanges t l)
    (hs : Part.seq ∉ l) (hc : Part.channels ∉ l) (he : Part.entries ∉ l) : t.TablesSafe bounded :=
  h.congr (hf.2 .seq hs) (hf.2 .channels hc) (hf.2 .entries he)

/-! ## A use of a table -/

/-- What stands behind the entry in use: the table without it, or what makes room for it. -/
def restOfUse {α : Type} (isFor : α → Bool) (table room : List α) : List α :=
  if table.any isFor then table.filter (fun x => !isFor x) else room

theorem restOfUse_sublist {α : Type} {isFor : α → Bool} {table room : List α} (hr : room.Sublist table) :
    (restOfUse isFor table room).Sublist table := by
  unfold restOfUse
  split
  · exact List.filter_sublist
  · exact hr

/-- R93, R98: the pair of the entry in use has no other entry. -/
theorem restOfUse_not_isFor {α : Type} {isFor : α → Bool} {table room : List α} (hr : room.Sublist table) :
    ∀ x ∈ restOfUse isFor table room, ¬ isFor x = true := by
  unfold restOfUse
  split
  next => exact fun x hx => by simpa using (List.mem_filter.1 hx).2
  next hn => exact fun x hx hp => hn (List.any_eq_true.2 ⟨x, hr.subset hx, hp⟩)

/-- R92: there is a place for the entry in use. -/
theorem restOfUse_length {α : Type} {isFor : α → Bool} {table room : List α} {k : Nat} (hl : table.length ≤ k)
    (hr : room.length < k) : (restOfUse isFor table room).length < k := by
  unfold restOfUse
  split
  next ha =>
    obtain ⟨x, hx, hp⟩ := List.any_eq_true.1 ha
    exact Nat.lt_of_lt_of_le (List.length_filter_lt_length_iff_exists.2 ⟨x, hx, by simp [hp]⟩) hl
  next => exact hr

theorem eraseLastP_sublist {α : Type} (q : α → Bool) (l : List α) : (eraseLastP q l).Sublist l := by
  have h : ((l.reverse.eraseP q).reverse).Sublist l.reverse.reverse := List.eraseP_sublist.reverse
  rwa [List.reverse_reverse] at h

theorem eraseLastP_length {α : Type} {q : α → Bool} {l : List α} {x : α} (hx : x ∈ l) (hq : q x = true) :
    (eraseLastP q l).length = l.length - 1 := by
  rw [eraseLastP, List.length_reverse, List.length_eraseP_of_mem (List.mem_reverse.2 hx) hq, List.length_reverse]

/-! ## The outbound table -/

/-- R94, R95: a full table has an entry that is not busy: a busy one is the destination of a mailbox, and there are
twelve mailboxes. -/
theorem State.exists_not_busyEntry (hk : s.seq.outKeys.Nodup) (hl : tablePlaces ≤ s.seq.outbound.length) :
    ∃ e ∈ s.seq.outbound, s.busyEntry e = false := by
  by_contra hall
  have hbusy : ∀ e ∈ s.seq.outbound, s.busyEntry e = true := fun e he => by
    by_contra hf
    exact hall ⟨e, he, Bool.not_eq_true _ ▸ hf⟩
  have hnodup : (s.seq.outKeys.map fun k => some (Destination.remote k.1 k.2)).Nodup :=
    hk.map fun a b hab => by
      injection hab with hab
      injection hab with h1 h2
      exact Prod.ext h1 h2
  have hsub : (s.seq.outKeys.map fun k => some (Destination.remote k.1 k.2)) ⊆ allRefs.map s.destination := by
    intro d hd
    obtain ⟨k, hk, rfl⟩ := List.mem_map.1 hd
    obtain ⟨e, he, rfl⟩ := List.mem_map.1 hk
    obtain ⟨r, -, hr⟩ := List.any_eq_true.1 (hbusy e he)
    simp only [Bool.and_eq_true, beq_iff_eq] at hr
    exact List.mem_map.2 ⟨r, mem_allRefs r, hr.2⟩
  have hle := (hnodup.subperm hsub).length_le
  simp only [SequenceUnit.outKeys, List.length_map] at hle
  have htwelve : allRefs.length = 12 := by decide
  unfold tablePlaces at hl
  omega

theorem State.roomOutbound_sublist (s : State) : s.roomOutbound.Sublist s.seq.outbound := by
  unfold State.roomOutbound
  split
  · exact .refl _
  · exact eraseLastP_sublist _ _

/-- R95: room is made for a new outbound entry. -/
theorem State.roomOutbound_length (hk : s.seq.outKeys.Nodup) (hl : s.seq.outbound.length ≤ tablePlaces) :
    s.roomOutbound.length < tablePlaces := by
  unfold State.roomOutbound
  split
  next hlt => exact hlt
  next hge =>
    obtain ⟨e, he, hfree⟩ := s.exists_not_busyEntry hk (Nat.not_lt.1 hge)
    rw [eraseLastP_length he (by simp [hfree])]
    unfold tablePlaces at *
    omega

theorem State.useOutbound_outbound (s : State) (n : NodeAddr) (c : ChannelNo) :
    (s.useOutbound n c).seq.outbound
      = s.outboundEntry n c :: restOfUse (·.isFor n c) s.seq.outbound s.roomOutbound := rfl

/-- R92, R93, R95: a use of the outbound table. -/
theorem State.TablesSafe.useOutbound (h : s.TablesSafe bounded) (n : NodeAddr) (c : ChannelNo) :
    (s.useOutbound n c).TablesSafe bounded := by
  obtain ⟨hn, hc, -⟩ := s.outboundEntry_spec n c
  have hkeys : (s.useOutbound n c).seq.outKeys
      = (n, c) :: (restOfUse (·.isFor n c) s.seq.outbound s.roomOutbound).map fun e => (e.node, e.channel) := by
    rw [SequenceUnit.outKeys, s.useOutbound_outbound, List.map_cons, hn, hc]
  refine ⟨h.channels, h.entries, ?_, fun hb => ?_, h.inKeys, h.inPlaces, h.owned⟩
  · rw [hkeys, List.nodup_cons]
    refine ⟨fun hmem => ?_, ((restOfUse_sublist s.roomOutbound_sublist).map _).nodup h.outKeys⟩
    obtain ⟨e, he, hkey⟩ := List.mem_map.1 hmem
    exact restOfUse_not_isFor s.roomOutbound_sublist e he ((e.isFor_iff n c).2 (Prod.mk.inj hkey))
  · have hl : s.seq.outbound.length ≤ tablePlaces := List.length_map (as := s.seq.outbound) _ ▸ h.outPlaces hb
    rw [hkeys, List.length_cons, List.length_map]
    exact restOfUse_length hl (State.roomOutbound_length h.outKeys hl)

/-- R97: a transmission end moves no entry and no key. -/
theorem State.TablesSafe.settleOutbound (h : s.TablesSafe bounded) (f : OwnFrame) (raw : RawResult) :
    (s.settleOutbound f raw).TablesSafe bounded := by
  have hf := s.settleOutbound_only f raw
  cases hb : f.body with
  | addressed d c b fr =>
    obtain ⟨hin, hout⟩ := s.settleOutbound_addressed hb raw
    refine h.of_keys (hf.2 .channels (by decide)) (hf.2 .entries (by decide)) ?_ (congrArg (List.map _) hin)
    rw [SequenceUnit.outKeys, hout, List.map_map]
    refine List.map_congr_left fun e _ => ?_
    simp only [Function.comp_apply]
    split <;> rfl
  | group g => exact h.congr (by simp [State.settleOutbound, hb]) (hf.2 .channels (by decide)) (hf.2 .entries (by decide))

/-! ## The inbound table -/

theorem State.roomInbound_sublist (s : State) : s.roomInbound.Sublist s.seq.inbound := by
  unfold State.roomInbound
  split
  · exact .refl _
  · exact List.dropLast_sublist _

/-- R101: room is made for a new inbound entry. -/
theorem State.roomInbound_length (hl : s.seq.inbound.length ≤ tablePlaces) : s.roomInbound.length < tablePlaces := by
  unfold State.roomInbound
  split
  next hlt => exact hlt
  next =>
    rw [List.length_dropLast]
    unfold tablePlaces at *
    omega

theorem State.sequenceCheck_inbound (s : State) (n : NodeAddr) (c : ChannelNo) (bit fresh : Bool) :
    (s.sequenceCheck n c bit fresh).1.seq.inbound
      = s.checkedEntry n c bit fresh :: restOfUse (·.isFor n c) s.seq.inbound s.roomInbound := rfl

/-- R98: the entry that a sequence check uses is the pair's. -/
theorem State.checkedEntry_key (s : State) (n : NodeAddr) (c : ChannelNo) (bit fresh : Bool) :
    (s.checkedEntry n c bit fresh).node = n ∧ (s.checkedEntry n c bit fresh).channel = c := by
  unfold State.checkedEntry
  split
  next e he =>
    obtain ⟨hn, hc⟩ := (e.isFor_iff n c).1 (List.find?_some (p := fun x : InEntry => x.isFor n c) he)
    split <;> exact ⟨hn, hc⟩
  next => exact ⟨rfl, rfl⟩

/-- R92, R98, R101: the sequence check of a frame to a channel that is owned. -/
theorem State.TablesSafe.sequenceCheck (h : s.TablesSafe bounded) (n : NodeAddr) (bit fresh : Bool)
    (hc : (s.channel c).owner ≠ none) : (s.sequenceCheck n c bit fresh).1.TablesSafe bounded := by
  obtain ⟨hnode, hchan⟩ := s.checkedEntry_key n c bit fresh
  have hsub := (restOfUse_sublist (isFor := (·.isFor n c)) s.roomInbound_sublist).map fun e => (e.node, e.channel)
  have hkeys : (s.sequenceCheck n c bit fresh).1.seq.inKeys
      = (n, c) :: (restOfUse (·.isFor n c) s.seq.inbound s.roomInbound).map fun e => (e.node, e.channel) := by
    rw [SequenceUnit.inKeys, s.sequenceCheck_inbound, List.map_cons, hnode, hchan]
  refine ⟨h.channels, h.entries, h.outKeys, h.outPlaces, ?_, ?_, fun k hk => ?_⟩
  · rw [hkeys, List.nodup_cons]
    refine ⟨fun hmem => ?_, hsub.nodup h.inKeys⟩
    obtain ⟨e, he, hkey⟩ := List.mem_map.1 hmem
    exact restOfUse_not_isFor s.roomInbound_sublist e he ((e.isFor_iff n c).2 (Prod.mk.inj hkey))
  · have hl : s.seq.inbound.length ≤ tablePlaces := List.length_map (as := s.seq.inbound) _ ▸ h.inPlaces
    rw [hkeys, List.length_cons, List.length_map]
    exact restOfUse_length hl (State.roomInbound_length hl)
  · rw [hkeys] at hk
    rcases List.mem_cons.1 hk with rfl | hk
    · exact hc
    · exact h.owned k (hsub.subset hk)

/-- R99: a delivery moves no entry and no key. -/
theorem State.TablesSafe.toggleExpected (h : s.TablesSafe bounded) (n : NodeAddr) (c : ChannelNo) :
    (s.toggleExpected n c).TablesSafe bounded := by
  refine h.of_keys rfl rfl rfl ?_
  simp only [SequenceUnit.inKeys, State.toggleExpected, State.putSeq_seq, List.map_map]
  refine List.map_congr_left fun e _ => ?_
  simp only [Function.comp_apply]
  split <;> rfl

/-! ## Channels -/

/-- R109, R112: a channel that gets or keeps an owner, and does not close. -/
theorem State.TablesSafe.putChannel (h : s.TablesSafe bounded) {v : Channel} (ho : v.owner ≠ none)
    (hv : v.state ≠ .closed) (c : ChannelNo) : (s.putChannel c v).TablesSafe bounded := by
  refine ⟨fun d => ?_, h.entries, h.outKeys, h.outPlaces, h.inKeys, h.inPlaces, fun k hk => ?_⟩
  · rw [State.putChannel_channel]
    split
    · exact iff_of_false hv ho
    · exact h.channels d
  · rw [State.putChannel_channel]
    split
    · exact ho
    · exact h.owned k hk

/-- R103, R111, R119: channels close, and the inbound entries of each that does are removed. -/
theorem State.TablesSafe.closing (h : s.TablesSafe bounded) {gone : ChannelNo → Bool} (he : t.entries = s.entries)
    (hs : t.seq = (s.forgetInbound gone).seq) (hc : ∀ d, t.channel d = if gone d = true then .free else s.channel d) :
    t.TablesSafe bounded := by
  have hen : ∀ i, t.entry i = s.entry i := fun i => by simp only [State.entry, he]
  have hsub : t.seq.inKeys.Sublist s.seq.inKeys := by
    rw [hs]
    exact List.filter_sublist.map _
  have hout : t.seq.outKeys = s.seq.outKeys := by rw [hs]; rfl
  refine ⟨fun d => ?_, fun i => ?_, hout ▸ h.outKeys, hout ▸ h.outPlaces, hsub.nodup h.inKeys,
    hsub.length_le.trans h.inPlaces, fun k hk => ?_⟩
  · rw [hc]
    split
    · exact iff_of_true rfl rfl
    · exact h.channels d
  · rw [hen]; exact h.entries i
  · have hstays : ¬ gone k.2 = true := by
      rw [hs] at hk
      obtain ⟨e, hmem, rfl⟩ := List.mem_map.1 hk
      simpa using (List.mem_filter.1 hmem).2
    rw [hc, if_neg hstays]
    exact h.owned k (hsub.subset hk)

theorem State.TablesSafe.releaseChannel (h : s.TablesSafe bounded) (c : ChannelNo) :
    (State.releaseChannel c s).TablesSafe bounded :=
  h.closing (gone := (· == c)) rfl rfl fun d => by
    have hd : (State.releaseChannel c s).channel d = if d = c then .free else s.channel d := s.putChannel_channel c d .free
    simpa only [beq_iff_eq] using hd

theorem State.closeChannels_channel (s : State) (p : Port) (d : ChannelNo) :
    (s.closeChannels p).channel d = if s.ownsChannel p d = true then .free else s.channel d := by
  simp [State.closeChannels, State.channel, State.ownsChannel, State.forgetInbound]

theorem State.TablesSafe.closeChannels (h : s.TablesSafe bounded) (p : Port) :
    (s.closeChannels p).TablesSafe bounded := h.closing rfl rfl (s.closeChannels_channel p)

/-! ## Acceptance entries -/

theorem State.TablesSafe.putEntry (h : s.TablesSafe bounded) {e : Entry} (he : e.Sound) (i : EntryNo) :
    (s.putEntry i e).TablesSafe bounded := by
  refine ⟨h.channels, fun j => ?_, h.outKeys, h.outPlaces, h.inKeys, h.inPlaces, h.owned⟩
  rw [State.putEntry_entry]
  split
  · exact he
  · exact h.entries j

theorem State.freeEntries_entry (s : State) (p : Port) (i : EntryNo) :
    (s.freeEntries p).entry i = if ((s.entry i).owner == some p) = true then .free else s.entry i := by
  simp [State.freeEntries, State.entry]

theorem State.TablesSafe.freeEntries (h : s.TablesSafe bounded) (p : Port) : (s.freeEntries p).TablesSafe bounded := by
  refine ⟨h.channels, fun i => ?_, h.outKeys, h.outPlaces, h.inKeys, h.inPlaces, h.owned⟩
  rw [State.freeEntries_entry]
  split
  · exact Entry.free_sound
  · exact h.entries i

/-- R121, R122, R123: what SET_ENTRY writes is sound. -/
theorem entryOf_sound {enabled kind fHi fLo sHi sLo : Byte} {e : Entry}
    (h : entryOf p enabled kind fHi fLo sHi sLo = some e) : e.Sound := by
  unfold entryOf at h
  split at h
  next =>
    cases h
    exact ⟨nofun, fun _ => rfl, nofun, nofun⟩
  next =>
    split at h
    next =>
      split at h
      next hle =>
        cases h
        exact ⟨nofun, nofun, fun _ => hle, nofun⟩
      next => cases h
    next => cases h
  next f _ _ _ =>
    split at h
    next m _ =>
      cases h
      exact ⟨nofun, nofun, nofun, fun _ => by simp only [BitVec.and_assoc, BitVec.and_self]⟩
    next => cases h
  next => cases h

end Sys2Proof.Machine
end

section
/-! O55, the tables, row by row: of the rows that write a sequence table, a channel or an acceptance entry, each keeps the
tables sound. -/

namespace Sys2Proof.Machine

variable {s : State} {bounded : Prop}

/-! ## Own turns, receptions, own frames -/

/-- R82, R93: a frame that is handed on uses the outbound entry of its pair. -/
theorem State.TablesSafe.handFrame (h : s.TablesSafe bounded) (r : Ref) (rec : MailRecord) :
    (s.handFrame r rec).TablesSafe bounded := by
  have hmark : (s.markSending r).TablesSafe bounded :=
    h.frame (s.markSending_only r) (by decide) (by decide) (by decide)
  unfold State.handFrame
  simp only []
  split
  · exact (hmark.useOutbound rec.dest rec.channel).frame (State.putLine_only _ _) (by decide) (by decide) (by decide)
  · exact hmark.frame (State.putLine_only _ _) (by decide) (by decide) (by decide)

theorem State.TablesSafe.ownTurnBegins (h : s.TablesSafe bounded) : s.ownTurnBegins.TablesSafe bounded := by
  unfold State.ownTurnBegins
  split
  · split
    · split
      · exact State.TablesSafe.handFrame (h.frame (s.putRotation_only _) (by decide) (by decide) (by decide)) _ _
      · exact h
    · exact h
  · exact h

theorem State.TablesSafe.roundBoundary (h : s.TablesSafe bounded) : s.roundBoundary.TablesSafe bounded :=
  h.frame s.roundBoundary_only (by decide) (by decide) (by decide)

theorem State.TablesSafe.beginTurnIdle (h : s.TablesSafe bounded) : s.beginTurnIdle.TablesSafe bounded := by
  have hturn : s.advanceTurn.TablesSafe bounded := h.frame s.advanceTurn_only (by decide) (by decide) (by decide)
  have hdrawn : s.advanceTurn.drawn.TablesSafe bounded :=
    hturn.frame (State.drawn_only _) (by decide) (by decide) (by decide)
  unfold State.beginTurnIdle
  simp only []
  split
  · split
    · exact hdrawn.roundBoundary.ownTurnBegins
    · exact hdrawn.ownTurnBegins.roundBoundary
  · split
    · exact hturn.roundBoundary
    · split
      · exact hturn.ownTurnBegins
      · exact hturn

theorem State.TablesSafe.firstTurnBegins (h : s.TablesSafe bounded) : s.firstTurnBegins.TablesSafe bounded := by
  have hfirst : s.startFirstTurn.TablesSafe bounded :=
    h.frame s.startFirstTurn_only (by decide) (by decide) (by decide)
  unfold State.firstTurnBegins
  simp only []
  split
  · exact hfirst.ownTurnBegins
  · exact hfirst

/-- R98, R99, R116: a reply decision checks the sequence of a channel that is owned. -/
theorem State.TablesSafe.replyDecision (h : s.TablesSafe bounded) (n : NodeAddr) (c : ChannelNo) (bit fresh : Bool)
    (k : Nat) : (s.replyDecision n c bit fresh k).1.TablesSafe bounded := by
  unfold State.replyDecision
  split
  · exact h
  · split
    · exact h
    next p hp =>
      have howned : (s.channel c).owner ≠ none := by rw [(Channel.receiver_eq_some hp).2]; simp
      have hchecked := h.sequenceCheck n bit fresh howned
      simp only []
      split
      · exact hchecked
      · split
        · exact hchecked
        · split
          · exact hchecked
          · exact State.TablesSafe.toggleExpected
              (hchecked.frame (State.appendRecord_only _ p _) (by decide) (by decide) (by decide)) n c

theorem State.TablesSafe.decideReception (h : s.TablesSafe bounded) (v : Classified) :
    (s.decideReception v).state.TablesSafe bounded := by
  unfold State.decideReception
  split
  · split
    · exact (h.replyDecision _ _ _ _ _).frame (State.putReply_only _ _) (by decide) (by decide) (by decide)
    · exact h
  · exact h.frame (s.deliverGroup_only _ _ _) (by decide) (by decide) (by decide)

theorem State.TablesSafe.receptionEnd (h : s.TablesSafe bounded) (rx : Reception) (v : Classified) :
    (s.receptionEnd rx v).TablesSafe bounded := by
  have hcounted := h.frame (s.receptionCounted_only v) (by decide) (by decide) (by decide)
  have hdecided : (s.receptionDecided rx v).state.TablesSafe bounded := by
    unfold State.receptionDecided
    split
    · exact hcounted.decideReception v
    · exact hcounted
  have hover := hdecided.frame (s.receptionOver_only rx v) (by decide) (by decide) (by decide)
  rw [State.receptionEnd_eq]
  exact hover.frame (Upd.finish_only _) (by decide) (by decide) (by decide)

theorem State.TablesSafe.transmissionEnd (h : s.TablesSafe bounded) (f : OwnFrame) (raw : RawResult) :
    (s.transmissionEnd f raw).TablesSafe bounded := by
  have hend := s.transmissionEnd_only f raw
  have hset := s.settleOutbound_only f raw
  exact (h.settleOutbound f raw).congr (s.transmissionEnd_seq f raw)
    (Eq.trans (hend.2 .channels (by decide)) (hset.2 .channels (by decide)).symm)
    (Eq.trans (hend.2 .entries (by decide)) (hset.2 .entries (by decide)).symm)

theorem State.TablesSafe.endLineTime (h : s.TablesSafe bounded) : s.endLineTime.TablesSafe bounded :=
  h.frame s.endLineTime_only (by decide) (by decide) (by decide)

/-! ## Line events -/

/-- The next state of an answer, if there is one, has sound tables. -/
abbrev TablesSafeAnswer (bounded : Prop) (a : Answer) : Prop := AnswerAll (State.TablesSafe bounded) a

theorem execTurnBegins_tablesSafe (h : s.TablesSafe bounded) : TablesSafeAnswer bounded (execTurnBegins s) := by
  unfold execTurnBegins
  split
  · refine answerAll_next ?_
    split
    · exact h.firstTurnBegins
    · exact h.beginTurnIdle
  · exact answerAll_next h

theorem execReceptionEnd_tablesSafe (rest : List RxChar) (h : s.TablesSafe bounded) :
    TablesSafeAnswer bounded (execReceptionEnd rest s) := by
  unfold execReceptionEnd
  split
  · simp only []
    split
    · exact answerAll_next (h.receptionEnd _ _)
    · exact answerAll_next h
  · exact answerAll_next h

theorem execCollision_tablesSafe (k : Nat) (c : RxChar) (h : s.TablesSafe bounded) :
    TablesSafeAnswer bounded (execCollision k c s) := by
  unfold execCollision
  split
  · split
    · split
      · refine answerAll_next ?_
        split
        · exact (h.transmissionEnd _ _).frame (State.receiveAfterCollision_only _ _ k c) (by decide) (by decide)
            (by decide)
        · exact h.transmissionEnd _ _
      · exact answerAll_next h
    · exact answerAll_next h
  · exact answerAll_next h

theorem execCheckWordReadBack_tablesSafe (h : s.TablesSafe bounded) :
    TablesSafeAnswer bounded (execCheckWordReadBack s) := by
  unfold execCheckWordReadBack
  split
  · split
    · exact answerAll_next (h.transmissionEnd _ _).endLineTime
    · exact answerAll_next (h.frame (s.putLine_only _) (by decide) (by decide) (by decide))
  · exact answerAll_next h

theorem execTransmissionEnd_tablesSafe (reply : Option RxChar) (h : s.TablesSafe bounded) :
    TablesSafeAnswer bounded (execTransmissionEnd reply s) := by
  unfold execTransmissionEnd
  split
  · exact answerAll_next (h.transmissionEnd _ _).endLineTime
  · exact answerAll_next h

theorem execSyncIdleCount_tablesSafe (h : s.TablesSafe bounded) : TablesSafeAnswer bounded (execSyncIdleCount s) := by
  have hsync : s.syncByIdle.TablesSafe bounded := h.frame s.syncByIdle_only (by decide) (by decide) (by decide)
  unfold execSyncIdleCount
  split
  · refine answerAll_next ?_
    split
    · exact hsync
    · exact hsync.firstTurnBegins
  · exact answerAll_next h

/-! ## Resets -/

theorem State.TablesSafe.deviceReset (s : State) (bounded : Prop) : s.deviceReset.TablesSafe bounded := by
  obtain ⟨hchannels, hsequence, hentries, -, -, -, -, -, hplaces, -⟩ := resetStateIsSound
  have hreset := State.tablesSafe_iff.2 ⟨hchannels, hsequence, hentries, fun _ : bounded => hplaces⟩
  exact hreset.congr rfl rfl rfl

/-- R119, R134: the port's channels and entries become free. -/
theorem State.TablesSafe.portCleared (h : s.TablesSafe bounded) (p : Port) :
    (s.portCleared p).state.TablesSafe bounded := by
  have hengine := h.frame (s.putEngine_only p (s.engine p).portReset) (by decide) (by decide) (by decide)
  have hmail := hengine.frame (State.resetMailboxes_only _ p) (by decide) (by decide) (by decide)
  unfold State.portCleared
  simp only [Upd.on_parts, Upd.andThen_parts]
  have hfreed := (hmail.closeChannels p).freeEntries p
  exact (hfreed.frame (State.emptyQueue_only _ p) (by decide) (by decide) (by decide)).frame
    (State.putOrder_only _ p .key) (by decide) (by decide) (by decide)

theorem State.TablesSafe.portReset (h : s.TablesSafe bounded) (p : Port) : (s.portReset p).TablesSafe bounded := by
  rw [State.portReset_eq, (Upd.andThen_parts _ _).1]
  exact ((h.portCleared p).frame (State.applyVotes_only _ _) (by decide) (by decide) (by decide)).frame
    (State.localPass_only _ true) (by decide) (by decide) (by decide)

theorem execPortReset_tablesSafe (p : Port) (h : s.TablesSafe bounded) :
    TablesSafeAnswer bounded (execPortReset p s) := by
  unfold execPortReset
  split
  · exact answerAll_next h
  · exact answerAll_next (State.TablesSafe.portReset (s := s.setPrst p true)
      (h.frame (s.putEngine_only p _) (by decide) (by decide) (by decide)) p)

/-! ## Commands -/

theorem tablesSafe_of_ports (u v : State) (h : u.OnlyChanges v [.engines, .queues]) (hu : u.TablesSafe bounded) :
    v.TablesSafe bounded := hu.frame h (by decide) (by decide) (by decide)

/-- The release of a command whose body keeps the tables sound. -/
theorem takeCommand_tablesSafe (p : Port) (c : Command) (body : State → State × Result)
    (hb : ∀ u : State, u.TablesSafe bounded → (body u).1.TablesSafe bounded) (h : s.TablesSafe bounded) :
    TablesSafeAnswer bounded (.next (s.takeCommand p c body)) :=
  answerAll_next (State.takeCode_keeps tablesSafe_of_ports p c.code body hb h)

theorem resetPortBody_tablesSafe (p : Port) (bytes : List Byte) (h : s.TablesSafe bounded) :
    (resetPortBody p bytes s).1.TablesSafe bounded := by
  cases bytes with
  | nil => exact h
  | cons b bytes =>
    simp only [resetPortBody]
    exact h.portReset p

/-- R104: a change of address or rate empties both sequence tables. -/
theorem configureBody_tablesSafe (bytes : List Byte) (h : s.TablesSafe bounded) :
    (configureBody bytes s).1.TablesSafe bounded := by
  have hconfigure : ∀ cfg : LineConfig, (s.configure cfg).TablesSafe bounded := fun cfg => by
    unfold State.configure
    simp only []
    split
    · exact h.congr rfl rfl rfl
    · exact ⟨h.channels, h.entries, .nil, fun _ => Nat.zero_le _, .nil, Nat.zero_le _, nofun⟩
  unfold configureBody
  split
  · split
    · exact h
    · split
      · exact hconfigure _
      · exact h
  · exact h

theorem ChannelState.ofClaimByte_ne_closed {b : Byte} {st : ChannelState} (h : ChannelState.ofClaimByte b = some st) :
    st ≠ .closed := by
  unfold ChannelState.ofClaimByte at h
  split_ifs at h <;> cases h <;> decide

theorem claimBody_tablesSafe (p : Port) (bytes : List Byte) (h : s.TablesSafe bounded) :
    (claimBody p bytes s).1.TablesSafe bounded := by
  unfold claimBody
  split
  · split
    next c st _ hst =>
      unfold claimChecks
      split
      · split <;> exact h
      · exact h.putChannel (Option.some_ne_none p) (ChannelState.ofClaimByte_ne_closed hst) c
    · exact h
  · exact h

/-- R108: an owner's command keeps the tables sound if it does so on a channel of the port. -/
theorem ownerCommand_tablesSafe (p : Port) (bytes : List Byte) (act : ChannelNo → State → State)
    (ha : ∀ c, (s.channel c).owner = some p → (act c s).TablesSafe bounded) (h : s.TablesSafe bounded) :
    (ownerCommand p bytes act s).1.TablesSafe bounded := by
  unfold ownerCommand
  split
  · split
    · split
      next c _ ho => exact ha c (beq_iff_eq.1 ho)
      · exact h
    · exact h
  · exact h

theorem State.TablesSafe.setChannelState (h : s.TablesSafe bounded) {st : ChannelState} (hst : st ≠ .closed)
    {p : Port} {c : ChannelNo} (ho : (s.channel c).owner = some p) :
    (State.setChannelState st c s).TablesSafe bounded := h.putChannel (by simp [ho]) hst c

theorem setEntryBody_tablesSafe (p : Port) (bytes : List Byte) (h : s.TablesSafe bounded) :
    (setEntryBody p bytes s).1.TablesSafe bounded := by
  unfold setEntryBody
  split
  · split
    next i e _ he =>
      unfold setEntryChecks
      split
      · split
        · exact h.putEntry (entryOf_sound he) i
        · exact h
      · exact h.putEntry (entryOf_sound he) i
    · exact h
  · exact h

theorem freeEntryBody_tablesSafe (p : Port) (bytes : List Byte) (h : s.TablesSafe bounded) :
    (freeEntryBody p bytes s).1.TablesSafe bounded := by
  unfold freeEntryBody
  split
  · split
    · split
      · exact h.putEntry Entry.free_sound _
      · exact h
    · exact h
  · exact h

/-! ## Rows -/

/-- The parts of the state on which the tables rest. -/
def Part.ofTables (k : Part) : Prop := k = .seq ∨ k = .channels ∨ k = .entries

/-- R92, R95, R103, R107, R121: every row keeps the tables sound. -/
theorem exec_tablesSafe (c : Instr) (h : s.TablesSafe bounded) : TablesSafeAnswer bounded (exec c s) := by
  by_cases hrow : ∃ k ∈ rowParts c, k.ofTables
  · cases c
    case deviceReset => exact answerAll_next (.deviceReset s bounded)
    case portReset p => exact execPortReset_tablesSafe p h
    case resetPort p bytes =>
      exact takeCommand_tablesSafe p .resetPort _ (fun _ hu => resetPortBody_tablesSafe p bytes hu) h
    case configure p bytes =>
      exact takeCommand_tablesSafe p .configure _ (fun _ hu => configureBody_tablesSafe bytes hu) h
    case claim p bytes => exact takeCommand_tablesSafe p .claim _ (fun _ hu => claimBody_tablesSafe p bytes hu) h
    case releaseChannel p bytes =>
      exact takeCommand_tablesSafe p .releaseChannel _
        (fun _ hu => ownerCommand_tablesSafe p bytes _ (fun c _ => hu.releaseChannel c) hu) h
    case halt p bytes =>
      exact takeCommand_tablesSafe p .halt _
        (fun _ hu => ownerCommand_tablesSafe p bytes _ (fun _ ho => hu.setChannelState (by decide) ho) hu) h
    case openChannel p bytes =>
      exact takeCommand_tablesSafe p .openChannel _
        (fun _ hu => ownerCommand_tablesSafe p bytes _ (fun _ ho => hu.setChannelState (by decide) ho) hu) h
    case setEntry p bytes =>
      exact takeCommand_tablesSafe p .setEntry _ (fun _ hu => setEntryBody_tablesSafe p bytes hu) h
    case freeEntry p bytes =>
      exact takeCommand_tablesSafe p .freeEntry _ (fun _ hu => freeEntryBody_tablesSafe p bytes hu) h
    case turnBegins => exact execTurnBegins_tablesSafe h
    case receptionEnd rest => exact execReceptionEnd_tablesSafe rest h
    case collision k c => exact execCollision_tablesSafe k c h
    case checkWordReadBack => exact execCheckWordReadBack_tablesSafe h
    case transmissionEnd reply => exact execTransmissionEnd_tablesSafe reply h
    case syncIdleCount => exact execSyncIdleCount_tablesSafe h
    all_goals simp [rowParts, Part.ofTables] at hrow
  · have hout : ∀ k : Part, k.ofTables → k ∉ rowParts c := fun k hk hm => hrow ⟨k, hm, hk⟩
    intro t ht
    exact h.frame (exec_only s c t ht) (hout _ (.inl rfl)) (hout _ (.inr (.inl rfl))) (hout _ (.inr (.inr rfl)))

end Sys2Proof.Machine
end

section
/-! O55, the ports: a transaction in progress stands under the pins that it needs, and its bytes agree with its snapshot.
A row other than the begin of a transaction, its snapshot and the release of PRSTn can only end a transaction, or lets
it go on under the pins that it has (R155, R164). -/

namespace Sys2Proof.Machine

/-! ## Transactions that go on -/

/-- No transaction is in progress, or the one that was goes on under the same levels of CSn and PRSTn. -/
def Engine.Continues (e e' : Engine) : Prop :=
  e'.txn = none ∨ e'.txn = e.txn ∧ e'.csLow = e.csLow ∧ e'.prstLow = e.prstLow

theorem Engine.Continues.trans {a b c : Engine} (h : a.Continues b) (g : b.Continues c) : a.Continues c := by
  rcases g with g | ⟨g1, g2, g3⟩
  · exact .inl g
  · rcases h with h | ⟨h1, h2, h3⟩
    · exact .inl (g1.trans h)
    · exact .inr ⟨g1.trans h1, g2.trans h2, g3.trans h3⟩

/-- No transaction begins at a port, and none is changed but by its end. -/
def State.TxnsContinue (s t : State) : Prop := ∀ q, (s.engine q).Continues (t.engine q)

theorem State.TxnsContinue.of_engine {s t : State} (h : ∀ q, t.engine q = s.engine q) : s.TxnsContinue t :=
  fun q => .inr (by rw [h q]; exact ⟨rfl, rfl, rfl⟩)

theorem State.TxnsContinue.of_only {s t : State} {l : List Part} (h : s.OnlyChanges t l) (hl : Part.engines ∉ l) :
    s.TxnsContinue t := .of_engine (h.engine hl)

theorem State.TxnsContinue.refl (s : State) : s.TxnsContinue s := .of_engine fun _ => rfl

theorem State.TxnsContinue.trans {s t u : State} (h : s.TxnsContinue t) (g : t.TxnsContinue u) : s.TxnsContinue u :=
  fun q => (h q).trans (g q)

/-- An action that leaves the engines. -/
theorem State.TxnsContinue.seq {s t u : State} {l : List Part} (h : s.TxnsContinue t) (g : t.OnlyChanges u l)
    (hl : Part.engines ∉ l) : s.TxnsContinue u := h.trans (.of_only g hl)

theorem State.OnlyOtherFlags.txnsContinue {s t : State} (h : s.OnlyOtherFlags t) : s.TxnsContinue t := fun q => by
  obtain ⟨f, -, e⟩ := h q
  exact .inr (by rw [e]; exact ⟨rfl, rfl, rfl⟩)

/-- An engine is written at one port alone. -/
theorem State.putEngine_txnsContinue {s : State} {p : Port} {e : Engine} (h : (s.engine p).Continues e) :
    s.TxnsContinue (s.putEngine p e) := fun q => by
  rw [State.putEngine_engine]
  split
  next hq => rw [hq]; exact h
  next => exact .inr ⟨rfl, rfl, rfl⟩

/-- R155, R157, R164: the ports are sound if transactions only go on or end. -/
theorem State.TxnsContinue.portsSound {s t : State} (h : s.TxnsContinue t) (hr : t.inReset = s.inReset)
    (hs : s.PortsSound) : t.PortsSound := fun p => by
  obtain ⟨hpins, hbytes⟩ := hs p
  rcases h p with h | ⟨h1, h2, h3⟩
  · rw [h]
    exact ⟨fun hn => absurd rfl hn, fun t ht => by cases ht⟩
  · rw [h1, h2, h3, hr]
    exact ⟨hpins, hbytes⟩

variable (s : State)

/-! ## Flags -/

theorem State.raiseLine_txnsContinue : s.TxnsContinue s.raiseLine := fun q => by
  rw [State.raiseLine_engine]
  exact .inr ⟨rfl, rfl, rfl⟩

theorem State.announceLine_txnsContinue (b : State) : s.TxnsContinue (State.announceLine b s) := by
  unfold State.announceLine
  split
  · exact .refl s
  · exact s.raiseLine_txnsContinue

theorem State.confine_txnsContinue (f : Confinement) : s.TxnsContinue (s.confine f) := fun q => by
  rw [State.confine_flags]
  exact .inr ⟨rfl, rfl, rfl⟩

theorem Upd.finish_txnsContinue (u : Upd) : u.state.TxnsContinue u.finish := u.finish_onlyOtherFlags.txnsContinue

theorem State.localPass_txnsContinue (retry : Bool) : s.TxnsContinue (s.localPass retry) :=
  State.localPass_keeps (P := s.TxnsContinue) retry
    (fun u r hu => hu.trans (u.passAt_onlyOtherFlags retry r).txnsContinue) (.refl s)

/-! ## Rounds and receptions -/

theorem State.roundBoundary_txnsContinue : s.TxnsContinue s.roundBoundary := by
  obtain ⟨u, hu, e⟩ := s.roundBoundary_cases
  obtain ⟨f, hf⟩ := u.confinementRoundBoundary_eq_confine
  have hbank : s.TxnsContinue s.bankRoundBoundary := .of_only s.bankRoundBoundary_only (by decide)
  have hpass : s.TxnsContinue u := by
    rcases hu with rfl | rfl
    · exact hbank
    · exact hbank.trans (State.localPass_txnsContinue _ false)
  rw [e, hf]
  exact hpass.trans (u.confine_txnsContinue f)

theorem State.beginTurnIdle_txnsContinue : s.TxnsContinue s.beginTurnIdle := by
  have hturn : s.TxnsContinue s.advanceTurn := .of_only s.advanceTurn_only (by decide)
  have hdrawn := hturn.seq (State.drawn_only _) (by decide)
  unfold State.beginTurnIdle
  simp only []
  split
  · split
    · exact (hdrawn.trans (State.roundBoundary_txnsContinue _)).seq (State.ownTurnBegins_only _) (by decide)
    · exact (hdrawn.seq (State.ownTurnBegins_only _) (by decide)).trans (State.roundBoundary_txnsContinue _)
  · split
    · exact hturn.trans (State.roundBoundary_txnsContinue _)
    · split
      · exact hturn.seq (State.ownTurnBegins_only _) (by decide)
      · exact hturn

theorem State.turnAtActivity_txnsContinue : s.TxnsContinue s.turnAtActivity := by
  have hturn : s.TxnsContinue s.advanceTurn := .of_only s.advanceTurn_only (by decide)
  unfold State.turnAtActivity State.beginTurnBusy
  split
  · exact .of_only s.startFirstTurn_only (by decide)
  · split
    · split
      · exact hturn.trans (State.roundBoundary_txnsContinue _)
      · exact hturn
    · exact .refl s

theorem State.slip_txnsContinue (a : NodeAddr) : s.TxnsContinue (s.slip a) := by
  have hseen : s.TxnsContinue s.slipSeen := .of_only s.slipSeen_only (by decide)
  rcases s.slip_cases a with ⟨-, -, e⟩ | ⟨-, e⟩
  · rw [e]
    exact ((hseen.seq (State.putLine_only _ _) (by decide)).trans (State.roundBoundary_txnsContinue _)).seq
      (State.putLine_only _ _) (by decide)
  · rw [e]
    exact hseen.seq (State.putLine_only _ _) (by decide)

theorem State.headerZero_txnsContinue (pre h0 : RxChar) : s.TxnsContinue (s.headerZero pre h0) := by
  unfold State.headerZero
  simp only []
  split
  · exact .of_only (s.follow_only _ _) (by decide)
  · split
    · exact (s.slip_txnsContinue _).seq (State.follow_only _ _ _) (by decide)
    · split
      · exact (s.slip_txnsContinue _).seq (State.frameStart_only _ _) (by decide)
      · exact .of_only (s.frameStart_only _) (by decide)

theorem State.appendRecord_txnsContinue (p : Port) (d : Delivery) : s.TxnsContinue (s.appendRecord p d) :=
  (s.appendRecord_onlyRxLoss p d).onlyOtherFlags.txnsContinue

theorem State.replyDecision_txnsContinue (n : NodeAddr) (c : ChannelNo) (bit fresh : Bool) (k : Nat) :
    s.TxnsContinue (s.replyDecision n c bit fresh k).1 := by
  have hchecked : s.TxnsContinue (s.sequenceCheck n c bit fresh).1 :=
    .of_only (s.sequenceCheck_only n c bit fresh) (by decide)
  unfold State.replyDecision
  split
  · exact .refl s
  · split
    · exact .refl s
    · simp only []
      split
      · exact hchecked
      · split
        · exact hchecked
        · split
          · exact hchecked
          · exact (hchecked.trans (State.appendRecord_txnsContinue _ _ _)).seq (State.toggleExpected_only _ n c)
              (by decide)

theorem State.deliverGroup_txnsContinue (n : NodeAddr) (g : GroupId) (k : Nat) :
    s.TxnsContinue (s.deliverGroup n g k).state := by
  unfold State.deliverGroup
  split
  · refine Upd.each_inv s.TxnsContinue _ _ (fun p _ u hu => hu.trans ?_) _ (.refl s)
    unfold State.deliverGroupAt
    split
    · exact (u.offer_onlyRxLoss p _).onlyOtherFlags.txnsContinue
    · exact .refl u
  · exact Upd.each_inv s.TxnsContinue _ _
      (fun p _ u hu => hu.trans (State.loseGroupAt_onlyRxLoss g p u).onlyOtherFlags.txnsContinue) _ (.refl s)

theorem State.decideReception_txnsContinue (v : Classified) : s.TxnsContinue (s.decideReception v).state := by
  unfold State.decideReception
  split
  · split
    · exact (s.replyDecision_txnsContinue _ _ _ _ _).seq (State.putReply_only _ _) (by decide)
    · exact .refl s
  · exact s.deliverGroup_txnsContinue _ _ _

theorem State.receptionEnd_txnsContinue (rx : Reception) (v : Classified) : s.TxnsContinue (s.receptionEnd rx v) := by
  have hcounted : s.TxnsContinue (s.receptionCounted v) := fun q => by
    rw [State.receptionCounted_engine]
    split <;> exact .inr ⟨rfl, rfl, rfl⟩
  have hdecided : s.TxnsContinue (s.receptionDecided rx v).state := by
    unfold State.receptionDecided
    split
    · exact hcounted.trans (State.decideReception_txnsContinue _ v)
    · exact hcounted
  have hover := hdecided.seq (s.receptionOver_only rx v) (by decide)
  rw [State.receptionEnd_eq]
  exact hover.trans (Upd.finish_txnsContinue _)

/-! ## Votes, own frames -/

theorem State.applyVotes_txnsContinue (v : Vector Vote 3) : s.TxnsContinue (s.applyVotes v).state :=
  have hmove : (s.putVotes v).TxnsContinue
      ((s.putVotes v).moveLineState (nextLineState s.member.lineState (votesEmpty v) s.inFlight)).state :=
    (State.moveLineState_onlyOtherFlags _ _).txnsContinue
  hmove.trans (State.announceLine_txnsContinue _ s)

theorem State.leaveAtEnd_txnsContinue : s.TxnsContinue s.leaveAtEnd.state := by
  unfold State.leaveAtEnd
  split
  · exact (s.moveLineState_onlyOtherFlags .offline).txnsContinue.trans (State.announceLine_txnsContinue _ s)
  · exact .refl s

theorem State.complete_txnsContinue (r : Ref) (o : MailOutcome) (c : Option ExpiryCause) :
    s.TxnsContinue (s.complete r o c) := (s.complete_onlyOtherFlags r o c).txnsContinue

/-- R59, R60, R64, R73: of the engines, the mailbox bank writes TXDONE. -/
theorem State.settle_txnsContinue (r : Ref) (raw : RawResult) : s.TxnsContinue (s.settle r raw).state := by
  have hattempt : s.TxnsContinue (s.settleAttempt r raw).state := by
    cases raw with
    | accept | refuse | sentClean => exact s.complete_txnsContinue r _ _
    | defer | noReply | badReply | collision =>
      simp only [State.settleAttempt]
      split
      · exact s.complete_txnsContinue r _ _
      · exact .of_only (s.putMailbox_only r _) (by decide)
  unfold State.settle
  split
  · split
    · rw [State.settleAborted_eq]
      exact (State.TxnsContinue.of_only (s.putMailbox_only r _) (by decide)).trans (State.complete_txnsContinue _ r _ _)
    · exact hattempt
  · exact .of_only (s.vacate_only r) (by decide)
  all_goals exact .refl s

theorem Upd.echo_txnsContinue (u : Upd) (f : OwnFrame) : u.state.TxnsContinue (u.echo f).state := by
  rcases u.echo_cases f with e | ⟨g, v, -, hv, e⟩
  · rw [e]; exact .refl _
  · have hready : u.state.TxnsContinue v := by
      rcases hv with rfl | rfl
      · exact .of_only (State.drawn_only _) (by decide)
      · exact (State.localPass_txnsContinue _ u.space).seq (State.drawn_only _) (by decide)
    rw [e]
    exact hready.trans (v.echo_onlyRxLoss _ _ _).onlyOtherFlags.txnsContinue

theorem State.transmissionEnd_txnsContinue (f : OwnFrame) (raw : RawResult) :
    s.TxnsContinue (s.transmissionEnd f raw) := by
  have hover : s.TxnsContinue s.frameOver := .of_only (s.putLine_only _) (by decide)
  have hsettled : s.TxnsContinue (s.endSettled f raw).state := by
    have hhealth := (hover.trans (State.settle_txnsContinue _ f.ref raw)).trans
      ((s.frameOver.settle f.ref raw).state.appendHealth_eq raw ▸ State.confine_txnsContinue _ _)
    exact hhealth.seq (State.settleOutbound_only _ f raw) (by decide)
  have hechoed : s.TxnsContinue (s.endEchoed f raw).state := by
    unfold State.endEchoed
    split
    · exact hsettled.trans (Upd.echo_txnsContinue _ f)
    · exact hsettled
  rw [State.transmissionEnd_eq]
  exact (hechoed.trans (State.leaveAtEnd_txnsContinue _)).trans (Upd.finish_txnsContinue _)

theorem State.receiveAfterCollision_txnsContinue (f : OwnFrame) (k : Nat) (c : RxChar) :
    s.TxnsContinue (s.receiveAfterCollision f k c) := by
  obtain ⟨u, hu, ho, -⟩ := s.receiveAfterCollision_slip f k c
  have hreceive : s.TxnsContinue (s.receivedOn (collisionChars f k c)) := .of_only (s.receivedOn_only _) (by decide)
  refine State.TxnsContinue.seq ?_ ho (by decide)
  rcases hu with rfl | ⟨a, rfl⟩
  · exact hreceive
  · exact hreceive.trans (State.slip_txnsContinue _ a)

theorem State.syncByIdle_txnsContinue : s.TxnsContinue s.syncByIdle :=
  have hput : s.TxnsContinue (s.putLine { s.line with
      turn := 31, syncIdle := 1000, busyUntilIdle := false, firstTurnDue := true }) :=
    .of_only (s.putLine_only _) (by decide)
  (hput.trans ((State.TxnsContinue.of_only (State.putLineState_only _ .active) (by decide)).trans
    (State.announceLine_txnsContinue _ _))).seq (State.spoil_only _) (by decide)

/-! ## Resets -/

theorem State.followRx_txnsContinue (p : Port) : s.TxnsContinue (s.followRx p) := fun q => by
  rw [State.followRx_engine]
  split
  next h => rw [h]; exact .inr ⟨rfl, rfl, rfl⟩
  next => exact .inr ⟨rfl, rfl, rfl⟩

theorem State.emptyQueue_txnsContinue (p : Port) : s.TxnsContinue (s.emptyQueue p).state :=
  have hslots := State.OnlyChanges.foldl (fun t (r : QueueRecord) => t.unhold r.slot) [.store]
    (fun t r => t.onHolders_only r.slot _) (s.queue p).records s
  ((State.TxnsContinue.of_only hslots (by decide)).seq (State.putQueue_only _ p .initial) (by decide)).trans
    (State.followRx_txnsContinue _ p)

/-- R164: after the port's engine is reset. -/
theorem State.portReset_txnsContinue (p : Port) :
    (s.putEngine p (s.engine p).portReset).TxnsContinue (s.portReset p) := by
  have hmail := State.TxnsContinue.of_only ((s.putEngine p (s.engine p).portReset).resetMailboxes_only p) (by decide)
  have hfreed := (hmail.seq (State.closeChannels_only _ p) (by decide)).seq (State.freeEntries_only _ p) (by decide)
  have hcleared : (s.putEngine p (s.engine p).portReset).TxnsContinue (s.portCleared p).state := by
    unfold State.portCleared
    simp only [Upd.on_parts, Upd.andThen_parts]
    exact (hfreed.trans (State.emptyQueue_txnsContinue _ p)).seq (State.putOrder_only _ p .key) (by decide)
  rw [State.portReset_eq, (Upd.andThen_parts _ _).1]
  exact (hcleared.trans (State.applyVotes_txnsContinue _ _)).trans (State.localPass_txnsContinue _ true)

end Sys2Proof.Machine
end

section
/-! O55, the ports, row by row; and the step, which keeps tables and ports sound. -/

namespace Sys2Proof.Machine

variable (s : State)

/-- The transactions of the ports go on or end, as far as an answer has a next state. -/
abbrev State.TxnsContinueAnswer (a : Answer) : Prop := AnswerAll s.TxnsContinue a

/-! ## Line events -/

theorem execTurnBegins_txnsContinue : s.TxnsContinueAnswer (execTurnBegins s) := by
  unfold execTurnBegins
  split
  · refine answerAll_next ?_
    split
    · exact .of_only s.firstTurnBegins_only (by decide)
    · exact s.beginTurnIdle_txnsContinue
  · exact answerAll_next (.refl s)

theorem execActivityBegins_txnsContinue : s.TxnsContinueAnswer (execActivityBegins s) := by
  unfold execActivityBegins
  split
  · exact answerAll_next (s.turnAtActivity_txnsContinue.seq (State.beginReception_only _ []) (by decide))
  · exact answerAll_next (.refl s)

theorem execTurnCheck_txnsContinue (chars : List RxChar) : s.TxnsContinueAnswer (execTurnCheck chars s) := by
  unfold execTurnCheck
  split
  · split
    · exact answerAll_next (s.headerZero_txnsContinue _ _)
    · exact answerAll_next (.refl s)
  · exact answerAll_next (.refl s)

theorem execReceptionEnd_txnsContinue (rest : List RxChar) : s.TxnsContinueAnswer (execReceptionEnd rest s) := by
  unfold execReceptionEnd
  split
  · simp only []
    split
    · exact answerAll_next (s.receptionEnd_txnsContinue _ _)
    · exact answerAll_next (.refl s)
  · exact answerAll_next (.refl s)

theorem execCollision_txnsContinue (k : Nat) (c : RxChar) : s.TxnsContinueAnswer (execCollision k c s) := by
  unfold execCollision
  split
  · split
    · split
      · refine answerAll_next ?_
        split
        · exact (s.transmissionEnd_txnsContinue _ _).trans (State.receiveAfterCollision_txnsContinue _ _ k c)
        · exact s.transmissionEnd_txnsContinue _ _
      · exact answerAll_next (.refl s)
    · exact answerAll_next (.refl s)
  · exact answerAll_next (.refl s)

theorem execCheckWordReadBack_txnsContinue : s.TxnsContinueAnswer (execCheckWordReadBack s) := by
  unfold execCheckWordReadBack
  split
  · split
    · exact answerAll_next ((s.transmissionEnd_txnsContinue _ _).seq (State.endLineTime_only _) (by decide))
    · exact answerAll_next (.of_only (s.putLine_only _) (by decide))
  · exact answerAll_next (.refl s)

theorem execTransmissionEnd_txnsContinue (reply : Option RxChar) :
    s.TxnsContinueAnswer (execTransmissionEnd reply s) := by
  unfold execTransmissionEnd
  split
  · exact answerAll_next ((s.transmissionEnd_txnsContinue _ _).seq (State.endLineTime_only _) (by decide))
  · exact answerAll_next (.refl s)

theorem execSyncIdleCount_txnsContinue : s.TxnsContinueAnswer (execSyncIdleCount s) := by
  unfold execSyncIdleCount
  split
  · refine answerAll_next ?_
    split
    · exact s.syncByIdle_txnsContinue
    · exact s.syncByIdle_txnsContinue.seq (State.firstTurnBegins_only _) (by decide)
  · exact answerAll_next (.refl s)

theorem execPortReset_txnsContinue (p : Port) : s.TxnsContinueAnswer (execPortReset p s) := by
  unfold execPortReset
  split
  · exact answerAll_next (.refl s)
  · have hengine : s.TxnsContinue ((s.setPrst p true).putEngine p ((s.setPrst p true).engine p).portReset) :=
      fun q => by
        rw [State.putEngine_engine]
        split
        next => exact .inl rfl
        next hq =>
          rw [State.setPrst, State.putEngine_engine, if_neg hq]
          exact .inr ⟨rfl, rfl, rfl⟩
    exact answerAll_next (hengine.trans (State.portReset_txnsContinue _ p))

/-! ## Releases -/

theorem State.closeTransaction_txnsContinue (p : Port) : s.TxnsContinue (s.closeTransaction p) := fun q => by
  rw [State.closeTransaction_engine]
  split
  · exact .inl rfl
  · exact .inr ⟨rfl, rfl, rfl⟩

theorem State.report_txnsContinue (p : Port) (x : Result) : s.TxnsContinue (s.report p x) :=
  State.putEngine_txnsContinue (.inr ⟨rfl, rfl, rfl⟩)

/-- R155: a release ends the transaction of its port, if one is in progress. -/
theorem State.atRelease_txnsContinue (p : Port) (fits : Transaction → Bool) (act : Option Snapshot → State → State)
    (ha : ∀ n (u : State), u.TxnsContinue (act n u)) : s.TxnsContinue (s.atRelease p fits act) := by
  unfold State.atRelease
  split
  next hn => exact State.putEngine_txnsContinue (.inl hn)
  next =>
    split
    · exact (s.closeTransaction_txnsContinue p).trans (ha _ _)
    · exact .refl s

theorem State.takeCode_txnsContinue (p : Port) (code : Byte) (body : State → State × Result)
    (hb : ∀ u : State, u.TxnsContinue (body u).1) : s.TxnsContinue (s.takeCode p code body) :=
  s.atRelease_txnsContinue p _ _ fun _ u => (hb u).trans (State.report_txnsContinue _ p _)

theorem takeCommand_txnsContinue (p : Port) (c : Command) (body : State → State × Result)
    (hb : ∀ u : State, u.TxnsContinue (body u).1) : s.TxnsContinueAnswer (.next (s.takeCommand p c body)) :=
  answerAll_next (s.takeCode_txnsContinue p c.code body hb)

/-- The release of a command whose body leaves the engines. -/
theorem takeCommand_frame_txnsContinue (p : Port) (c : Command) (body : State → State × Result) {l : List Part}
    (hb : ∀ u : State, u.OnlyChanges (body u).1 l) (hl : Part.engines ∉ l) :
    s.TxnsContinueAnswer (.next (s.takeCommand p c body)) :=
  takeCommand_txnsContinue s p c body fun u => .of_only (hb u) hl

theorem takeRead_txnsContinue (p : Port) (cmd : ReadCommand) (k : Nat) (effect : SideEffect → State → State)
    (he : ∀ e (u : State), u.TxnsContinue (effect e u)) : s.TxnsContinueAnswer (.next (s.takeRead p cmd k effect)) := by
  refine answerAll_next (s.atRelease_txnsContinue p _ _ fun n u =>
    State.TxnsContinue.trans ?_ (State.report_txnsContinue _ p _))
  unfold applyEffect
  split
  · split
    · exact he _ u
    · exact .refl u
  · exact .refl u

/-- The release of a read command whose effect leaves the engines. -/
theorem takeRead_frame_txnsContinue (p : Port) (cmd : ReadCommand) (k : Nat) (effect : SideEffect → State → State)
    {l : List Part} (he : ∀ e (u : State), u.OnlyChanges (effect e u) l) (hl : Part.engines ∉ l) :
    s.TxnsContinueAnswer (.next (s.takeRead p cmd k effect)) :=
  takeRead_txnsContinue s p cmd k effect fun e u => .of_only (he e u) hl

/-! ## Bodies that write the engines -/

theorem voteBody_txnsContinue (p : Port) (bytes : List Byte) : s.TxnsContinue (voteBody p bytes s).1 := by
  unfold voteBody
  split
  · split
    · split
      · exact .refl s
      · exact (s.applyVotes_txnsContinue _).trans (Upd.finish_txnsContinue _)
    · exact .refl s
  · exact .refl s

theorem resetPortBody_txnsContinue (p : Port) (bytes : List Byte) : s.TxnsContinue (resetPortBody p bytes s).1 := by
  cases bytes with
  | nil => exact .refl s
  | cons b bytes =>
    simp only [resetPortBody]
    exact (State.putEngine_txnsContinue (.inl rfl)).trans (s.portReset_txnsContinue p)

theorem resumeBody_txnsContinue (bytes : List Byte) : s.TxnsContinue (resumeBody bytes s).1 := by
  unfold resumeBody
  split
  · split
    · exact s.confine_txnsContinue _
    all_goals exact .refl s
  · exact .refl s

theorem State.requestMailbox_txnsContinue (r : Ref) (rec : MailRecord) : s.TxnsContinue (s.requestMailbox r rec) := by
  have henqueue : s.TxnsContinue (s.enqueue r rec) := .of_only (s.enqueue_only r rec) (by decide)
  unfold State.requestMailbox
  split
  · exact henqueue.trans (State.localPass_txnsContinue _ false)
  · exact henqueue

/-- R56: REQUEST is refused, or the mailbox is requested. -/
theorem requestChecks_state (r : Ref) :
    (requestChecks r s).1 = s ∨ ∃ rec, (requestChecks r s).1 = s.requestMailbox r rec := by
  unfold requestChecks
  split
  case h_1 rec _ _ | h_2 rec _ _ =>
    split
    · exact .inl rfl
    · split
      · exact .inl rfl
      · exact .inr ⟨rec, rfl⟩
  case h_3 => exact .inl rfl

theorem requestBody_txnsContinue (p : Port) (bytes : List Byte) : s.TxnsContinue (requestBody p bytes s).1 := by
  unfold requestBody
  split
  · split
    next i _ =>
      rcases requestChecks_state s ⟨p, i⟩ with e | ⟨rec, e⟩
      · rw [e]; exact .refl s
      · rw [e]; exact s.requestMailbox_txnsContinue _ rec
    · exact .refl s
  · exact .refl s

theorem abortBody_txnsContinue (p : Port) (bytes : List Byte) : s.TxnsContinue (abortBody p bytes s).1 := by
  unfold abortBody
  split
  · split
    · unfold abortChecks
      split
      case h_1 | h_2 | h_3 => exact (s.completeUpd_finish_onlyOtherFlags _ _ _).txnsContinue
      case h_4 => exact .of_only (s.putMailbox_only _ _) (by decide)
      all_goals exact .refl s
    · exact .refl s
  · exact .refl s

theorem setQueueBody_txnsContinue (p : Port) (bytes : List Byte) : s.TxnsContinue (setQueueBody p bytes s).1 := by
  have hset : ∀ k o, s.TxnsContinue (s.setQueue p k o) := fun k o => .of_only (s.putQueue_only p _) (by decide)
  unfold setQueueBody
  split
  · split
    · split
      · exact .refl s
      · split
        · exact .refl s
        · simp only []
          split
          · exact (hset _ _).trans (State.localPass_txnsContinue _ true)
          · exact hset _ _
    · exact .refl s
  · exact .refl s

theorem State.removeHead_finish_txnsContinue (p : Port) : s.TxnsContinue (s.removeHead p).finish := by
  have hremoved : s.TxnsContinue (s.removeHead p).state := by
    cases h : (s.queue p).records with
    | nil => simp only [State.removeHead, h]; exact .refl s
    | cons r rest =>
      obtain ⟨-, -, -, hengine, -⟩ := s.removeHead_cons p r rest h
      intro q
      rw [hengine q]
      split
      next hq => rw [hq]; exact .inr ⟨rfl, rfl, rfl⟩
      next => exact .inr ⟨rfl, rfl, rfl⟩
  exact hremoved.trans (Upd.finish_txnsContinue _)

theorem releaseBody_txnsContinue (p : Port) (bytes : List Byte) : s.TxnsContinue (releaseBody p bytes s).1 := by
  unfold releaseBody
  split
  · split
    · exact .refl s
    · exact s.removeHead_finish_txnsContinue p
  · exact .refl s

theorem setPortBody_txnsContinue (p : Port) (bytes : List Byte) : s.TxnsContinue (setPortBody p bytes s).1 := by
  have hset : ∀ m o, s.TxnsContinue (s.setPort p m o) := fun m o =>
    (State.putEngine_txnsContinue (s := s) (p := p) (e := { s.engine p with mask := m }) (.inr ⟨rfl, rfl, rfl⟩)).seq
      (State.putOrder_only _ p o) (by decide)
  unfold setPortBody
  split
  · split
    · split
      · exact hset _ _
      · exact .refl s
    · exact .refl s
  · exact .refl s

theorem acknowledgeBody_txnsContinue (p : Port) (bytes : List Byte) : s.TxnsContinue (acknowledgeBody p bytes s).1 := by
  unfold acknowledgeBody
  split
  · split
    · exact State.putEngine_txnsContinue (.inr ⟨rfl, rfl, rfl⟩)
    · exact .refl s
  · exact .refl s

/-! ## Rows -/

/-- The rows that neither begin a transaction, nor bring it bytes, nor move a reset pin without resetting a port. -/
def rowContinuesTxns : Instr → Bool
  | .transactionBegin _ | .readSnapshot _ _ _ | .prstRelease _ | .deviceReset | .deviceResetEnds => false
  | _ => true

/-- R155: by every other row a transaction goes on or ends. -/
theorem exec_txnsContinue (c : Instr) (hc : rowContinuesTxns c = true) : s.TxnsContinueAnswer (exec c s) := by
  cases c with
  | transactionBegin | readSnapshot | prstRelease | deviceReset | deviceResetEnds => cases hc
  | portReset p => exact execPortReset_txnsContinue s p
  | transactionWithoutCommand p => exact answerAll_next (s.atRelease_txnsContinue p _ _ fun _ u => .refl u)
  | badCommand p code bytes =>
    simp only [exec, execBadCommand]
    split
    · exact answerAll_next (.refl s)
    · exact answerAll_next (s.takeCode_txnsContinue p code _ fun u => .refl u)
  | vote p bytes => exact takeCommand_txnsContinue s p .vote _ (voteBody_txnsContinue · p bytes)
  | resetPort p bytes => exact takeCommand_txnsContinue s p .resetPort _ (resetPortBody_txnsContinue · p bytes)
  | resume p bytes => exact takeCommand_txnsContinue s p .resume _ (resumeBody_txnsContinue · bytes)
  | request p bytes => exact takeCommand_txnsContinue s p .request _ (requestBody_txnsContinue · p bytes)
  | abort p bytes => exact takeCommand_txnsContinue s p .abort _ (abortBody_txnsContinue · p bytes)
  | setQueue p bytes => exact takeCommand_txnsContinue s p .setQueue _ (setQueueBody_txnsContinue · p bytes)
  | release p bytes => exact takeCommand_txnsContinue s p .release _ (releaseBody_txnsContinue · p bytes)
  | setPort p bytes => exact takeCommand_txnsContinue s p .setPort _ (setPortBody_txnsContinue · p bytes)
  | acknowledge p bytes => exact takeCommand_txnsContinue s p .acknowledge _ (acknowledgeBody_txnsContinue · p bytes)
  | nop p bytes => exact takeCommand_txnsContinue s p .nop _ fun u => by rw [nopBody_state]; exact .refl u
  | configure p bytes => exact takeCommand_frame_txnsContinue s p .configure _ (configureBody_only · bytes) (by decide)
  | load p bytes => exact takeCommand_frame_txnsContinue s p .load _ (loadBody_only · p bytes) (by decide)
  | clear p bytes => exact takeCommand_frame_txnsContinue s p .clear _ (clearBody_only · p bytes) (by decide)
  | claim p bytes => exact takeCommand_frame_txnsContinue s p .claim _ (claimBody_only · p bytes) (by decide)
  | releaseChannel p bytes =>
    exact takeCommand_frame_txnsContinue s p .releaseChannel _
      (fun u => ownerCommand_only u p bytes _ _ u.releaseChannel_only) (by decide)
  | halt p bytes =>
    exact takeCommand_frame_txnsContinue s p .halt _
      (fun u => ownerCommand_only u p bytes _ _ (u.setChannelState_only _)) (by decide)
  | openChannel p bytes =>
    exact takeCommand_frame_txnsContinue s p .openChannel _
      (fun u => ownerCommand_only u p bytes _ _ (u.setChannelState_only _)) (by decide)
  | setEntry p bytes => exact takeCommand_frame_txnsContinue s p .setEntry _ (setEntryBody_only · p bytes) (by decide)
  | freeEntry p bytes => exact takeCommand_frame_txnsContinue s p .freeEntry _ (freeEntryBody_only · p bytes) (by decide)
  | readLine p k => exact takeRead_frame_txnsContinue s p .line k _ (fun e u => reduceCounters_only u e) (by decide)
  | readCompletion p k =>
    exact takeRead_frame_txnsContinue s p .completion k _ (fun e u => dropReported_only u p e) (by decide)
  | peek p k => exact takeRead_frame_txnsContinue s p .peek k _ (fun e u => pinHead_only u p e) (by decide)
  | take p k => exact takeRead_txnsContinue s p .take k _ (fun _ u => u.removeHead_finish_txnsContinue p)
  | readMailbox p k => exact takeRead_txnsContinue s p .mailbox k _ (fun _ u => .refl u)
  | readChannel p k => exact takeRead_txnsContinue s p .channel k _ (fun _ u => .refl u)
  | readEntry p k => exact takeRead_txnsContinue s p .entry k _ (fun _ u => .refl u)
  | readQueue p k => exact takeRead_txnsContinue s p .queue k _ (fun _ u => .refl u)
  | turnBegins => exact execTurnBegins_txnsContinue s
  | activityBegins => exact execActivityBegins_txnsContinue s
  | turnCheck chars => exact execTurnCheck_txnsContinue s chars
  | receptionEnd rest => exact execReceptionEnd_txnsContinue s rest
  | collision k c => exact execCollision_txnsContinue s k c
  | checkWordReadBack => exact execCheckWordReadBack_txnsContinue s
  | transmissionEnd reply => exact execTransmissionEnd_txnsContinue s reply
  | syncIdleCount => exact execSyncIdleCount_txnsContinue s
  | replyByteStart => exact fun t ht => .of_only (execReplyByteStart_only s t ht) (by decide)
  | replyByteEnd => exact fun t ht => .of_only (execReplyByteEnd_only s t ht) (by decide)
  | lineTimeEnd => exact fun t ht => .of_only (execLineTimeEnd_only s t ht) (by decide)
  | syncEntryIdleSeen => exact fun t ht => .of_only (execSyncEntryIdleSeen_only s t ht) (by decide)

/-! ## Pins, the begin of a transaction, its snapshot -/

variable {s}

/-- One port's engine is written soundly. -/
theorem State.PortsSound.putEngine (h : s.PortsSound) {p : Port} {e : Engine}
    (hpins : e.txn ≠ none → e.csLow = true ∧ e.prstLow = false ∧ s.inReset = false) (hbytes : ∀ t ∈ e.txn, t.Sound) :
    (s.putEngine p e).PortsSound := fun q => by
  rw [State.putEngine_engine]
  split
  · exact ⟨hpins, hbytes⟩
  · exact h q

/-- R155: a transaction begins under a low CSn, with neither PRSTn nor RESET low, and has brought no byte. -/
theorem State.PortsSound.beginTransaction (h : s.PortsSound) (p : Port) : (s.beginTransaction p).PortsSound := by
  obtain ⟨hpins, hbytes⟩ := h p
  unfold State.beginTransaction
  simp only []
  split
  · exact h
  · split
    · exact h.putEngine (fun hn => ⟨rfl, (hpins hn).2⟩) hbytes
    next hlow =>
      simp only [Bool.or_eq_true, not_or, Bool.not_eq_true] at hlow
      refine h.putEngine (fun _ => ⟨rfl, hlow⟩) fun t ht => ?_
      cases ht
      exact ⟨fun _ => rfl, nofun⟩

theorem State.snapshotOf_cmd (s : State) (p : Port) (cmd : ReadCommand) (arg : Byte) :
    (s.snapshotOf p cmd arg).cmd = cmd := by
  cases cmd with
  | line => exact s.snapLine_cmd arg
  | mailbox => exact s.snapMailbox_cmd p arg
  | completion => exact s.snapCompletion_cmd p
  | channel => exact s.snapChannel_cmd arg
  | entry => exact s.snapEntry_cmd arg
  | peek | take =>
    simp only [State.snapshotOf, State.snapHead]
    split <;> rfl
  | queue => rfl

/-- R157: the snapshot comes with byte 0 and the argument byte of its command. -/
theorem State.PortsSound.takeSnapshot (h : s.PortsSound) {p : Port} {t : Transaction} (ht : (s.engine p).txn = some t)
    (cmd : ReadCommand) (arg : Byte) : (s.takeSnapshot p t cmd arg).PortsSound := by
  obtain ⟨hpins, -⟩ := h p
  have hput := h.putEngine (p := p)
    (e := { s.engine p with txn := some { t with received := [cmd.code, arg],
                                                 snapshot := some (s.snapshotOf p cmd arg) } })
    (fun _ => hpins (by rw [ht]; exact nofun)) (fun u hu => by
      cases hu
      refine ⟨nofun, fun n hn => ?_⟩
      cases hn
      exact ⟨by rw [s.snapshotOf_cmd]; rfl, rfl⟩)
  unfold State.takeSnapshot
  simp only []
  split <;> exact hput

/-- R155, R157, R164, R167: every row keeps the ports sound. -/
theorem exec_portsSound (c : Instr) (h : s.PortsSound) : AnswerAll State.PortsSound (exec c s) := by
  by_cases hc : rowContinuesTxns c = true
  · have hreset : Part.inReset ∉ rowParts c := by cases c <;> simp_all [rowParts, rowContinuesTxns]
    exact fun t ht => (exec_txnsContinue s c hc t ht).portsSound ((exec_only s c t ht).2 .inReset hreset) h
  · cases c
    case transactionBegin p => exact answerAll_next (h.beginTransaction p)
    case readSnapshot p cmd arg =>
      simp only [exec, execReadSnapshot]
      split
      next t ht =>
        split
        · exact answerAll_next (h.takeSnapshot ht cmd arg)
        · exact answerAll_next h
      next => exact answerAll_next h
    case prstRelease p =>
      obtain ⟨hpins, hbytes⟩ := h p
      exact answerAll_next (h.putEngine (fun hn => ⟨(hpins hn).1, rfl, (hpins hn).2.2⟩) hbytes)
    case deviceReset =>
      refine answerAll_next fun p => ?_
      have htxn : (s.deviceReset.engine p).txn = none := by
        simp [State.deviceReset, State.engine, Engine.portReset, Engine.initial]
      rw [htxn]
      exact ⟨fun hn => absurd rfl hn, nofun⟩
    case deviceResetEnds => exact answerAll_next fun p => ⟨fun hn => ⟨((h p).1 hn).1, ((h p).1 hn).2.1, rfl⟩, (h p).2⟩
    all_goals exact absurd rfl hc

/-! ## The step -/

/-- Settles O55: a step is the row of the front command, or idles, and every row keeps tables and ports sound. -/
theorem stepKeepsTablesSound : Obligations.StepKeepsTablesSound := by
  intro s t hchannels hsequence hentries hports hstep
  have hsafe : s.TablesSafe (s.seq.outbound.length ≤ 32) :=
    State.tablesSafe_iff.2 ⟨hchannels, hsequence, hentries, id⟩
  have key : t.TablesSafe (s.seq.outbound.length ≤ 32) ∧ t.PortsSound := by
    unfold step at hstep
    split at hstep
    · cases hstep
      exact ⟨hsafe, hports⟩
    next c rest _ =>
      have hq : State.TablesSafe (s.seq.outbound.length ≤ 32) { s with pending := rest } := hsafe.congr rfl rfl rfl
      exact ⟨exec_tablesSafe c hq t hstep, exec_portsSound c (s := { s with pending := rest }) hports t hstep⟩
  obtain ⟨hc, hs, he, hplaces⟩ := State.tablesSafe_iff.1 key.1
  exact ⟨hc, hs, he, key.2, fun _ => hplaces⟩

end Sys2Proof.Machine
end

section
/-! O30, O31: CLAIM takes a channel that no port owns (R107, R109); RELEASE_CHANNEL, HALT and OPEN act for the owner of
the channel alone (R108, R111, R112). -/

namespace Sys2Proof.Machine

variable {s : State} {p : Port} {c : ChannelNo}

/-! ## CLAIM -/

theorem claimBody_at {a b : Byte} (rest : List Byte) (ha : a.toNat = c.val) (hb : b.toNat ≤ 1) :
    claimBody p (a :: b :: rest) s = claimChecks p c (if b = 0 then .opened else .halted) s := by
  simp [claimBody, indexOfByte_some ha, ChannelState.ofClaimByte_some hb]

theorem claimBody_out {a b : Byte} (rest : List Byte) (h : 15 < a.toNat ∨ 1 < b.toNat) :
    claimBody p (a :: b :: rest) s = (s, .badArgument) := by
  rcases h with ha | hb
  · simp [claimBody, indexOfByte_none (n := 16) ha]
  · simp [claimBody, ChannelState.ofClaimByte_none hb]

theorem claimChecks_elsewhere {q : Port} (st : ChannelState) (hq : q ≠ p) (h : (s.channel c).owner = some q) :
    claimChecks p c st s = (s, .ownedElsewhere) := by
  simp [claimChecks, h, hq]

theorem claimChecks_own (st : ChannelState) (h : (s.channel c).owner = some p) : claimChecks p c st s = (s, .ok) := by
  simp [claimChecks, h]

theorem claimChecks_free (st : ChannelState) (h : (s.channel c).owner = none) :
    claimChecks p c st s = (s.putChannel c { owner := some p, state := st }, .ok) := by
  simp [claimChecks, h]

theorem State.closeTransaction_channel (s : State) (p : Port) (d : ChannelNo) :
    (s.closeTransaction p).channel d = s.channel d := by simp

/-- R103: a channel that no port owns has no inbound entry. -/
theorem State.SequenceSound.channel_ne_of_unowned (h : s.SequenceSound) (hc : (s.channel c).owner = none) :
    ∀ e ∈ s.seq.inbound, e.channel ≠ c := by
  obtain ⟨-, -, -, howned⟩ := h
  rintro e he rfl
  exact howned e he hc

/-- Settles O30: the checks of CLAIM in their order, then the owner of the channel. -/
theorem claimTakesClosedChannel : Obligations.ClaimTakesClosedChannel := by
  intro s p hin hch a b rest
  refine ⟨fun hout => ⟨_, rfl, State.takeCommand_refused .claim hin (claimBody_out rest hout)⟩, fun c ha hb =>
    ⟨fun q hq ho => ?_, fun ho => ?_, fun hst => ?_⟩⟩
  · exact ⟨_, rfl, State.takeCommand_refused .claim hin ((claimBody_at rest ha hb).trans
      (claimChecks_elsewhere _ hq (by rwa [State.closeTransaction_channel])))⟩
  · exact ⟨_, rfl, State.takeCommand_refused .claim hin ((claimBody_at rest ha hb).trans
      (claimChecks_own _ (by rwa [State.closeTransaction_channel])))⟩
  · have ho : (s.channel c).owner = none := (hch c).1 hst
    have hbody := (claimBody_at (s := s.closeTransaction p) (p := p) rest ha hb).trans
      (claimChecks_free _ (by rwa [State.closeTransaction_channel]))
    obtain ⟨e, hans⟩ := State.takeCommand_taken .claim hin hbody (State.putChannel_only _ _ _) (by decide) (by decide)
    refine ⟨_, rfl, hans, ?_⟩
    rw [e]
    exact ⟨by simp, fun d hd => by simp [hd], fun hseq => by simpa using hseq.channel_ne_of_unowned ho⟩

/-! ## RELEASE_CHANNEL, HALT, OPEN -/

theorem ownerCommand_out {a : Byte} (rest : List Byte) (act : ChannelNo → State → State) (h : 15 < a.toNat) :
    ownerCommand p (a :: rest) act s = (s, .badArgument) := by
  simp [ownerCommand, indexOfByte_none (n := 16) h]

theorem State.ownsChannel_iff : s.ownsChannel p c = true ↔ (s.channel c).owner = some p := by
  simp [State.ownsChannel]

theorem ownerCommand_notOwner {a : Byte} (rest : List Byte) (act : ChannelNo → State → State) (h : a.toNat = c.val)
    (ho : (s.channel c).owner ≠ some p) : ownerCommand p (a :: rest) act s = (s, .notOwner) := by
  simp [ownerCommand, indexOfByte_some h, mt State.ownsChannel_iff.1 ho]

theorem ownerCommand_owner {a : Byte} (rest : List Byte) (act : ChannelNo → State → State) (h : a.toNat = c.val)
    (ho : (s.channel c).owner = some p) : ownerCommand p (a :: rest) act s = (act c s, .ok) := by
  simp [ownerCommand, indexOfByte_some h, State.ownsChannel_iff.2 ho]

/-- R108: the refusals of the three commands are those of one body. -/
theorem ownerCommands_refused {a : Byte} {rest : List Byte} {x : Result} (hin : s.InTransaction p)
    (h : ∀ act, ownerCommand p (a :: rest) act (s.closeTransaction p) = (s.closeTransaction p, x)) :
    ∀ i ∈ [Instr.releaseChannel p (a :: rest), .halt p (a :: rest), .openChannel p (a :: rest)],
      ∃ t, exec i s = .next t ∧ s.Answered t p x [] := by
  simp only [List.mem_cons, List.not_mem_nil, or_false]
  rintro i (rfl | rfl | rfl)
  · exact ⟨_, rfl, State.takeCommand_refused .releaseChannel hin (h _)⟩
  · exact ⟨_, rfl, State.takeCommand_refused .halt hin (h _)⟩
  · exact ⟨_, rfl, State.takeCommand_refused .openChannel hin (h _)⟩

/-- R112: a command that sets the state of a channel, given by its owner. -/
theorem State.takeCommand_setChannelState {a : Byte} {rest : List Byte} (cmd : Command) (st : ChannelState)
    (hin : s.InTransaction p) (ha : a.toNat = c.val) (ho : (s.channel c).owner = some p) :
    let t := s.takeCommand p cmd (ownerCommand p (a :: rest) (State.setChannelState st))
    s.Answered t p .ok [.channels] ∧ t.channel c = { owner := some p, state := st }
      ∧ ∀ d, d ≠ c → t.channel d = s.channel d := by
  have hbody := ownerCommand_owner (s := s.closeTransaction p) (p := p) rest (State.setChannelState st) ha
    (by rwa [State.closeTransaction_channel])
  obtain ⟨e, hans⟩ := State.takeCommand_taken cmd hin hbody (State.setChannelState_only _ _ _) (by decide) (by decide)
  refine ⟨hans, ?_⟩
  rw [e]
  exact ⟨by simp [State.setChannelState, ho], fun d hd => by simp [State.setChannelState, hd]⟩

/-- R111: what RELEASE_CHANNEL leaves of the channels and of the sequence tables. -/
theorem State.releaseChannel_writes (c : ChannelNo) (s : State) :
    (State.releaseChannel c s).channel c = { owner := none, state := .closed }
      ∧ (∀ d, d ≠ c → (State.releaseChannel c s).channel d = s.channel d)
      ∧ (State.releaseChannel c s).seq.outbound = s.seq.outbound
      ∧ (State.releaseChannel c s).seq.inbound = s.seq.inbound.filter (fun e => e.channel ≠ c) := by
  have hother : ∀ d, (State.releaseChannel c s).channel d = if d = c then Channel.free else s.channel d :=
    fun d => s.putChannel_channel c d Channel.free
  refine ⟨(hother c).trans (if_pos rfl), fun d hd => (hother d).trans (if_neg hd), rfl, ?_⟩
  exact List.filter_congr fun e _ => (decide_not (p := e.channel = c)).symm

/-- Settles O31: the refusals are those of one body; RELEASE_CHANNEL frees the channel, HALT and OPEN set its state. -/
theorem ownerCommandsChangeTheChannel : Obligations.OwnerCommandsChangeTheChannel := by
  intro s p hin a rest
  refine ⟨fun hout => ownerCommands_refused hin fun act => ownerCommand_out rest act hout, fun c ha =>
    ⟨fun ho => ownerCommands_refused hin fun act =>
      ownerCommand_notOwner rest act ha (by rwa [State.closeTransaction_channel]), fun ho => ⟨?_, ?_, ?_⟩⟩⟩
  · have hbody := ownerCommand_owner (s := s.closeTransaction p) (p := p) rest State.releaseChannel ha
      (by rwa [State.closeTransaction_channel])
    obtain ⟨e, hans⟩ :=
      State.takeCommand_taken .releaseChannel hin hbody (State.releaseChannel_only _ _) (by decide) (by decide)
    refine ⟨_, rfl, hans, ?_⟩
    rw [e]
    simpa using State.releaseChannel_writes c (s.closeTransaction p)
  · exact ⟨_, rfl, State.takeCommand_setChannelState .halt .halted hin ha ho⟩
  · exact ⟨_, rfl, State.takeCommand_setChannelState .openChannel .opened hin ha ho⟩

end Sys2Proof.Machine
end

section
/-! O48: the reply decision (R116 to R118) for a GOOD frame to the own address that was received in ACTIVE. The decision
is made on the state that keeps the payload; the end of the reception slot and of the line time, and the local pass,
follow it. -/

namespace Sys2Proof.Machine

/-! ## GOOD frames -/

theorem headerSettles_cons_none {g : Bool} {n : Nat} {c : RxChar} {cs : List RxChar}
    (h : headerSettles g n (c :: cs) = none) :
    ¬ headerFormatBad g n c.value = true ∧ headerSettles g (n + 1) cs = none := by
  rw [headerSettles] at h
  split at h
  · cases h
  next hbad =>
    split at h
    · cases h
    · exact ⟨hbad, h⟩

/-- R5: what a header byte settles is never GOOD. -/
theorem headerSettles_ne_good {g : Bool} {cs : List RxChar} {n : Nat} : headerSettles g n cs ≠ some .good := by
  induction cs generalizing n with
  | nil => simp [headerSettles]
  | cons c cs ih =>
    rw [headerSettles]
    split
    · decide
    · split
      · decide
      · exact ih

theorem classifyTail_bounds (h0 h1 h2 : RxChar) (len : Byte) (tail : List RxChar) :
    (classifyTail h0 h1 h2 len tail).frameStart = true
      ∧ (classifyTail h0 h1 h2 len tail).payload.length ≤ len.toNat := by
  unfold classifyTail
  simp only []
  split <;> simp [valuesOf]

/-- R5, R169: only a frame with a sound header is GOOD: frame start has been raised for it, and its payload has at most
64 bytes. -/
theorem classify_good {cs : List RxChar} (h : (classify cs).cls = .good) :
    (classify cs).frameStart = true ∧ (classify cs).payload.length ≤ 64 := by
  match cs with
  | [] => cases h
  | [pre] =>
    rw [classify] at h
    split at h <;> cases h
  | pre :: h0 :: rest =>
    rcases hd : isDisturbance pre h0 with _ | _
    · rcases hs : headerSettles (groupBit h0.value) 1 (rest.take 3) with _ | cls
      · match rest with
        | h1 :: h2 :: len :: tail =>
          obtain ⟨-, hs1⟩ := headerSettles_cons_none hs
          obtain ⟨-, hs2⟩ := headerSettles_cons_none hs1
          obtain ⟨hlen, -⟩ := headerSettles_cons_none hs2
          rw [headerFormatBad_three, Nat.not_lt] at hlen
          rw [classify_whole tail hd hs]
          obtain ⟨hstart, hpay⟩ := classifyTail_bounds h0 h1 h2 len.value tail
          exact ⟨hstart, hpay.trans hlen⟩
        | [] | [_] | [_, _] =>
          rw [(classify_cut hd hs (by simp)).1] at h
          cases h
      · rw [(classify_settled hd hs).1] at h
        exact absurd (h ▸ hs) headerSettles_ne_good
    · rw [(classify_disturbance rest hd).1] at h
      cases h

/-- R169: the kind bit of an ADDRESSED frame. -/
theorem Classified.kindBit_of_addressed {v : Classified} {d : NodeAddr} {c : ChannelNo} {b f : Bool}
    (h : v.body = .addressed d c b f) : v.h0.getLsbD 2 = false := by
  unfold Classified.body at h
  split at h
  · cases h
  next hg => exact Bool.eq_false_iff.2 hg

/-! ## The payload in its slot -/

/-- The state with other bytes in its slots. -/
def State.withBytes (s : State) (bytes : Vector (Vector Byte 64) 32) : State :=
  s.putStore { s.store with bytes := bytes }

theorem State.withBytes_only (s : State) (bytes : Vector (Vector Byte 64) 32) :
    s.OnlyChanges (s.withBytes bytes) [.store] := s.putStore_only _

/-- R17, R136: a reception end writes the payload into the slot that the frame holds, and nothing else. -/
theorem State.keepPayload_eq (s : State) (payload : List Byte) :
    ∃ bytes, s.keepPayload payload = s.withBytes bytes
      ∧ (∀ j, s.heldSlot ≠ some j → bytes[j] = s.store.bytes[j])
      ∧ ∀ i, s.heldSlot = some i → bytes[i].toList.take payload.length = payload.take 64 := by
  unfold State.keepPayload
  split
  next i hi =>
    refine ⟨_, rfl, fun j hj => ?_, fun k hk => ?_⟩
    · exact (s.writeSlot_bytes i j payload).trans (if_neg fun h => hj (by rw [hi, h]))
    · obtain rfl : i = k := Option.some.inj (hi.symm.trans hk)
      exact (congrArg (·.toList.take payload.length) ((s.writeSlot_bytes i i payload).trans (if_pos rfl))).trans
        (writeBytes_take _ payload)
  next hn => exact ⟨_, rfl, fun _ _ => rfl, fun i hi => by rw [hn] at hi; cases hi⟩

/-! ## The reply decision, check by check -/

section
variable (s : State) (n : NodeAddr) (c : ChannelNo) (bit fresh : Bool) (k : Nat)

/-- R116, check 1: no reply in LISTEN, SILENCED and READY_TO_RESUME. -/
theorem State.replyDecision_silent
    (h : s.mode = some .listen ∨ s.fault.state = .silenced ∨ s.fault.state = .readyToResume) :
    s.replyDecision n c bit fresh k = (s, none) := by
  rw [State.replyDecision, if_pos (by simpa [State.silent] using h)]

variable {s}

/-- R116, check 1: a node that replies. -/
theorem State.replies (hm : s.mode ≠ some .listen) (hf : s.fault.state = .engaged ∨ s.fault.state = .guarded) :
    ¬ (s.mode == some .listen || s.silent) = true := by
  rcases hf with hf | hf <;> simp [State.silent, hm, hf]

variable (hr : ¬ (s.mode == some .listen || s.silent) = true)
include hr

/-- R116, check 2: a channel that is not OPEN. -/
theorem State.replyDecision_refused (h : (s.channel c).state ≠ .opened) :
    s.replyDecision n c bit fresh k = (s, some .refuse) := by
  rw [State.replyDecision, if_neg hr, Channel.receiver_of_state h]

variable {p : Port} (ho : s.channel c = { owner := some p, state := .opened })
include ho

/-- R116, check 3: a duplicate. -/
theorem State.replyDecision_duplicate (h : (s.sequenceCheck n c bit fresh).2 = true) :
    s.replyDecision n c bit fresh k = ((s.sequenceCheck n c bit fresh).1, some .accept) := by
  rw [State.replyDecision, if_neg hr, ho]
  simp only [Channel.receiver, h, if_true]

variable (hnew : (s.sequenceCheck n c bit fresh).2 = false)
include hnew

/-- R116, checks 4 and 5: no slot, or a full queue. -/
theorem State.replyDecision_deferred (h : s.heldSlot = none ∨ (s.queue p).full = true) :
    s.replyDecision n c bit fresh k = ((s.sequenceCheck n c bit fresh).1, some .defer) := by
  rw [State.replyDecision, if_neg hr, ho]
  simp only [Channel.receiver, hnew, Bool.false_eq_true, if_false]
  rcases hs : s.heldSlot with _ | i
  · rfl
  · have hfull : (s.queue p).full = true := h.resolve_left (by simp [hs])
    simp only [hfull, if_true]

/-- R117: a delivery. -/
theorem State.replyDecision_delivered {i : SlotNo} (hi : s.heldSlot = some i) (hq : (s.queue p).full = false) :
    s.replyDecision n c bit fresh k
      = ((s.sequenceCheck n c bit fresh).1.deliverAddressed n c k p i, some .accept) := by
  rw [State.replyDecision, if_neg hr, ho]
  simp only [Channel.receiver, hnew, hi, hq, Bool.false_eq_true, if_false]

end

/-- Whatever is decided, the outbound table and the bytes of the slots stay. -/
theorem State.replyDecision_leaves (s : State) (n : NodeAddr) (c : ChannelNo) (bit fresh : Bool) (k : Nat) :
    (s.replyDecision n c bit fresh k).1.seq.outbound = s.seq.outbound
      ∧ (s.replyDecision n c bit fresh k).1.store.bytes = s.store.bytes := by
  unfold State.replyDecision
  split
  · exact ⟨rfl, rfl⟩
  · split
    · exact ⟨rfl, rfl⟩
    · simp only []
      split
      · exact ⟨rfl, rfl⟩
      · split
        · exact ⟨rfl, rfl⟩
        · split <;> exact ⟨rfl, rfl⟩

/-- R99, R117, R141: what a delivery writes. -/
theorem State.deliverAddressed_writes (s : State) (n : NodeAddr) (c : ChannelNo) (k : Nat) (p : Port) (i : SlotNo) :
    (s.deliverAddressed n c k p i).seq.inbound = s.seq.inbound.map (fun e =>
        if e.node = n ∧ e.channel = c then { e with expected := !e.expected } else e)
      ∧ (s.deliverAddressed n c k p i).queue p = { s.queue p with
          records := (s.queue p).records
            ++ [{ origin := .lineAddressed n c, arrival := s.line.round,
                  lossesBefore := (s.queue p).pendingLosses, length := k, slot := i }],
          pendingLosses := 0 }
      ∧ ((s.deliverAddressed n c k p i).engine p).flags = { (s.engine p).flags with rx := true }
      ∧ (∀ q, q ≠ p → (s.deliverAddressed n c k p i).queue q = s.queue q
          ∧ (s.deliverAddressed n c k p i).engine q = s.engine q)
      ∧ (s.deliverAddressed n c k p i).store
          = { s.store with holders := s.store.holders.set i (s.store.holders[i] + 1) } := by
  have hq : ∀ q, (s.deliverAddressed n c k p i).queue q = _ := fun q => s.appendRecord_queue p q _
  have he : ∀ q, (s.deliverAddressed n c k p i).engine q = _ := fun q => s.appendRecord_engine p q _
  refine ⟨List.map_congr_left fun e _ => by simp only [e.isFor_iff], (hq p).trans (if_pos rfl),
    congrArg Engine.flags ((he p).trans (if_pos rfl)),
    fun q hne => ⟨(hq q).trans (if_neg hne), (he q).trans (if_neg hne)⟩, rfl⟩

/-! ## What follows on the decision -/

section
variable {s w : State} {rx : Reception} {v : Classified} {r : Option ReplyCode}

/-- R18: the parts that are as the decision leaves them. -/
theorem State.receptionDecided_then_only (s : State) (rx : Reception) (v : Classified) :
    (s.receptionDecided rx v).state.OnlyChanges (s.receptionEnd rx v)
      [.line, .store, .boxes, .refs, .completions, .queues, .engines] := by
  have hf : (s.receptionOver rx v).OnlyChanges (s.receptionEnd rx v) passParts := by
    rw [State.receptionEnd_eq]
    exact Upd.finish_only _
  exact ((s.receptionOver_only rx v).mono (by decide)).seq hf (by decide)

/-- R16: the reply code stands as the decision handed it over. -/
theorem State.receptionEnd_reply (s : State) (rx : Reception) (v : Classified) :
    (s.receptionEnd rx v).line.reply = (s.receptionDecided rx v).state.line.reply := by
  have hs := (State.endReceptionSlot_eq (s.receptionDecided rx v).state).1
  rw [State.receptionEnd_eq, (Upd.finish_only _).line (by decide), (Upd.on_parts _ _).1, (Upd.andThen_parts _ _).1,
    State.afterReceptionEnd_line _ v rx (by rw [hs]), hs]
  unfold LineUnit.receptionOver
  split <;> rfl

/-- R84: with no LOCAL mailbox pending the local pass decides nothing. -/
theorem State.receptionEnd_eq_over_of_none (h : s.NoLocalPending) : s.receptionEnd rx v = s.receptionOver rx v := by
  rw [State.receptionEnd_eq]
  exact Upd.finish_none _ (((h.of_only (s.receptionCounted_only v) (by decide) (by decide)).of_only
    (s.receptionDecided_only rx v) (by decide) (by decide)).of_only (s.receptionOver_only rx v) (by decide) (by decide))

/-- R137: a slot that a record refers to does not return to the pool. -/
theorem State.endReceptionSlot_space {i : SlotNo} (hi : s.store.rxSlot = some i) (hh : s.store.holders[i] ≠ 0) :
    s.endReceptionSlot.removed = false ∧ s.endReceptionSlot.space = false := by
  simpa [State.endReceptionSlot, hi, State.slotFree] using hh

variable (hd : s.receptionDecided rx v = .start (w.putReply r))
include hd

/-- R88, R137: a reply decision that leaves a record in the slot calls for no local pass. -/
theorem State.receptionEnd_eq_over_of_held {i : SlotNo} (hi : w.store.rxSlot = some i) (hh : w.store.holders[i] ≠ 0) :
    s.receptionEnd rx v = s.receptionOver rx v := by
  obtain ⟨hrem, hspace⟩ := State.endReceptionSlot_space (s := w.putReply r) hi hh
  rw [State.receptionEnd_eq, Upd.finish]
  simp only [Upd.on_parts, Upd.andThen_parts, hd, Upd.start_state, hrem, hspace, Bool.or_false, Bool.false_eq_true,
    if_false]
  rw [State.receptionOver, hd, (Upd.start_state _).1]

theorem State.receptionEnd_decided :
    (s.receptionEnd rx v).line.reply = r ∧ (s.receptionEnd rx v).seq = w.seq
      ∧ (s.receptionEnd rx v).fault = w.fault := by
  have ho := s.receptionDecided_then_only rx v
  refine ⟨(s.receptionEnd_reply rx v).trans (by rw [hd]; rfl), ?_, ?_⟩
  · exact Eq.trans (ho.2 .seq (by decide)) (by rw [hd]; rfl)
  · exact Eq.trans (ho.2 .fault (by decide)) (by rw [hd]; rfl)

/-- R18, R137: without a local pass the end of slot and line time is all that follows. -/
theorem State.receptionEnd_decided_settled (he : s.receptionEnd rx v = s.receptionOver rx v) :
    w.OnlyChanges (s.receptionEnd rx v) [.line, .store]
      ∧ (s.receptionEnd rx v).store = { w.store with rxSlot := none } := by
  have ho := s.receptionOver_only rx v
  have hst := s.receptionOver_store rx v
  rw [hd] at ho hst
  rw [he]
  exact ⟨((w.putReply_only r).mono (by decide)).seq ho (by decide), hst⟩

theorem State.receptionEnd_decided_queues (h : s.NoLocalPending) : (s.receptionEnd rx v).queues = w.queues :=
  (State.receptionEnd_decided_settled hd (State.receptionEnd_eq_over_of_none h)).1.2 .queues (by decide)

end

/-- R115: the reply decision takes a GOOD frame to the own address that was received in ACTIVE, on the state that keeps
its payload. -/
theorem State.receptionDecided_own {s : State} {rx : Reception} {v : Classified} {c : ChannelNo} {bit fresh : Bool}
    (hg : v.cls = .good) (hf : v.frameStart = true) (ha : rx.activeAtStart = true) (hl : s.member.lineState = .active)
    (hb : v.body = .addressed s.member.config.nodeAddress c bit fresh) :
    s.receptionDecided rx v
      = .start (((s.keepPayload v.payload).replyDecision v.sender c bit fresh v.payload.length).1.putReply
          ((s.keepPayload v.payload).replyDecision v.sender c bit fresh v.payload.length).2) := by
  have hns : ¬ s.syncsBy v = true := by
    rw [s.syncsBy_iff, hl]
    exact fun h => absurd h.1 (by decide)
  have hc : s.receptionCounted v = s.keepPayload v.payload := by
    rw [s.receptionCounted_of_not_syncs hns, hg]
    rfl
  have hm : (s.keepPayload v.payload).member = s.member :=
    (s.keepPayload_only v.payload).member (by decide) (by decide) (by decide)
  simp [State.receptionDecided, State.decideReception, hc, hg, hf, ha, hb, hm]

section
variable {s : State} {rx : Reception} {v : Classified} {c : ChannelNo} {bit fresh : Bool}

/-- R16, R118: what follows on a reply decision. -/
theorem State.receptionEnd_of_reply {w : State} {r : Option ReplyCode} {d : State × Option ReplyCode}
    (hd : s.receptionDecided rx v = .start (d.1.putReply d.2)) (hw : d = (w, r)) :
    (s.receptionEnd rx v).line.reply = r ∧ (s.receptionEnd rx v).seq = w.seq
      ∧ (s.NoLocalPending → (s.receptionEnd rx v).queues = w.queues) := by
  subst hw
  obtain ⟨hreply, hseq, -⟩ := State.receptionEnd_decided hd
  exact ⟨hreply, hseq, State.receptionEnd_decided_queues hd⟩

theorem State.heldSlot_rxSlot {i : SlotNo} (h : s.heldSlot = some i) : s.store.rxSlot = some i := by
  unfold State.heldSlot at h
  split at h
  · exact h
  · cases h

theorem State.deliverAddressed_only (s : State) (n : NodeAddr) (c : ChannelNo) (k : Nat) (p : Port) (i : SlotNo) :
    s.OnlyChanges (s.deliverAddressed n c k p i) [.seq, .store, .queues, .engines] :=
  ((s.appendRecord_only p _).mono (by decide)).seq (State.toggleExpected_only _ n c) (by decide)

/-- R117, R135, R137: a delivery, in the slot of the reception with its payload in it. -/
theorem State.receptionEnd_delivered {p : Port} {i : SlotNo} {bytes : Vector (Vector Byte 64) 32}
    (hd : s.receptionDecided rx v
      = .start ((((s.withBytes bytes).sequenceCheck v.sender c bit fresh).1.deliverAddressed
          v.sender c v.payload.length p i).putReply (some .accept)))
    (hi : s.store.rxSlot = some i) :
    (s.receptionEnd rx v).line.reply = some .accept
      ∧ (s.receptionEnd rx v).seq.inbound = (s.sequenceCheck v.sender c bit fresh).1.seq.inbound.map (fun e =>
          if e.node = v.sender ∧ e.channel = c then { e with expected := !e.expected } else e)
      ∧ (s.receptionEnd rx v).queue p = { s.queue p with
          records := (s.queue p).records
            ++ [{ origin := .lineAddressed v.sender c, arrival := s.line.round,
                  lossesBefore := (s.queue p).pendingLosses, length := v.payload.length, slot := i }],
          pendingLosses := 0 }
      ∧ ((s.receptionEnd rx v).engine p).flags = { (s.engine p).flags with rx := true }
      ∧ (∀ q, q ≠ p → (s.receptionEnd rx v).queue q = s.queue q ∧ (s.receptionEnd rx v).engine q = s.engine q)
      ∧ (s.receptionEnd rx v).store
          = { holders := s.store.holders.set i (s.store.holders[i] + 1), bytes := bytes, rxSlot := none }
      ∧ s.OnlyChanges (s.receptionEnd rx v) [.line, .seq, .store, .queues, .engines] := by
  obtain ⟨hin, hq, hflags, hothers, hst⟩ :=
    ((s.withBytes bytes).sequenceCheck v.sender c bit fresh).1.deliverAddressed_writes
      v.sender c v.payload.length p i
  have hsw := (((s.withBytes_only bytes).mono (m := [.seq, .store, .queues, .engines])
    (by decide)).seq (State.sequenceCheck_only _ v.sender c bit fresh) (by decide)).seq
    (State.deliverAddressed_only _ v.sender c v.payload.length p i) (by decide)
  generalize ((s.withBytes bytes).sequenceCheck v.sender c bit fresh).1.deliverAddressed
    v.sender c v.payload.length p i = w at *
  have hslot : w.store.rxSlot = some i := (congrArg FrameStore.rxSlot hst).trans hi
  have hheld : w.store.holders[i] ≠ 0 := by
    rw [hst]
    simp
  obtain ⟨hreply, hseq, -⟩ := State.receptionEnd_decided hd
  obtain ⟨hwt, hstore⟩ := State.receptionEnd_decided_settled hd (State.receptionEnd_eq_over_of_held hd hslot hheld)
  have hqueue := hwt.queue (by decide)
  have hengine := hwt.engine (by decide)
  refine ⟨hreply, by rw [hseq, hin]; rfl, by rw [hqueue, hq]; rfl, by rw [hengine, hflags]; rfl,
    fun q hne => ⟨by rw [hqueue, (hothers q hne).1]; rfl, by rw [hengine, (hothers q hne).2]; rfl⟩,
    by rw [hstore, hst]; rfl, (hsw.mono (by decide)).seq hwt (by decide)⟩

end

/-- Settles O48: the decision on the state that keeps the payload, check by check (R116); a delivery leaves a record in
the slot, so that no local pass follows it. -/
theorem replyDecisionAnswersAndDelivers : Obligations.ReplyDecisionAnswersAndDelivers := by
  intro s rx rest v c bit fresh hr hp ha hl hv hg hb
  subst hv
  obtain ⟨hstart, hlen⟩ := classify_good hg
  have hexec := execReceptionEnd_eq s rx rest hr (by rw [hp]; exact hstart)
  have hd := State.receptionDecided_own hg hstart ha hl hb
  generalize classify (rx.chars ++ rest) = v at *
  obtain ⟨hhold, -, -, -, -, -, hline⟩ := s.receptionEnd_line_writes v hr
  obtain ⟨bytes, hu, hother, hown⟩ := s.keepPayload_eq v.payload
  rw [hu] at hd
  obtain ⟨-, hseq, hfault⟩ := State.receptionEnd_decided hd
  obtain ⟨hout, hbytes⟩ := (s.withBytes bytes).replyDecision_leaves v.sender c bit fresh v.payload.length
  have hsame := (s.withBytes bytes).replyDecision_only v.sender c bit fresh v.payload.length
  have hend := fun w r => State.receptionEnd_of_reply (w := w) (r := r) hd
  refine ⟨_, hexec, (hline (.inr (Classified.kindBit_of_addressed hb))).1, s.receptionEnd_rxSlot rx v, hhold,
    hfault.trans (hsame.2 .fault (by decide)), by rw [hseq, hout]; rfl, fun hn j hj => ?_, fun hs => ?_, fun hm hf =>
    ⟨fun hst => ?_, fun p ho => ⟨fun hdup => ?_, fun hnew hno => ?_, fun i hnew hi hq => ?_⟩⟩⟩
  · have hst := (State.receptionEnd_decided_settled hd (State.receptionEnd_eq_over_of_none hn)).2
    have hb : (s.receptionEnd rx v).store.bytes = bytes := (congrArg FrameStore.bytes hst).trans hbytes
    rw [hb]
    exact hother j hj
  -- In the four cases without a delivery: sequence tables and queues of `s.withBytes bytes` are those of `s`.
  · exact hend (s.withBytes bytes) _ (State.replyDecision_silent _ _ _ _ _ _ hs)
  · exact hend (s.withBytes bytes) _ (State.replyDecision_refused _ _ _ _ _ (State.replies hm hf) hst)
  · exact hend ((s.withBytes bytes).sequenceCheck v.sender c bit fresh).1 _
      (State.replyDecision_duplicate _ _ _ _ _ (State.replies hm hf) ho hdup)
  · exact hend ((s.withBytes bytes).sequenceCheck v.sender c bit fresh).1 _
      (State.replyDecision_deferred _ _ _ _ _ (State.replies hm hf) ho hnew hno)
  · rw [State.replyDecision_delivered (s := s.withBytes bytes) _ _ _ _ _ (State.replies hm hf) ho hnew hi hq] at hd
    obtain ⟨hreply, hin, hqueue, hflags, hothers, hst, honly⟩ :=
      State.receptionEnd_delivered hd (State.heldSlot_rxSlot hi)
    refine ⟨hreply, hin, hqueue, hflags, hothers, by rw [hst], ?_, fun j hj => ?_, honly⟩
    · rw [hst]
      exact (hown i hi).trans (List.take_of_length_le hlen)
    · rw [hst]
      exact hother j fun h => hj (Option.some.inj (h.symm.trans hi))

end Sys2Proof.Machine
end

section
/-! O32, O33, O34: SET_ENTRY takes a free entry or one of the issuing port (R123), FREE_ENTRY frees an entry of the issuing
port (R125). -/

namespace Sys2Proof.Machine

variable {s : State} {p : Port} {i : EntryNo}

theorem State.closeTransaction_entry (s : State) (p : Port) (i : EntryNo) :
    (s.closeTransaction p).entry i = s.entry i := by simp

/-! ## The entry that SET_ENTRY carries -/

theorem EntryKind.exists_code {b : Byte} (h : b.toNat ≤ 2) : ∃ k : EntryKind, k.code = b := by
  have hb : b.toNat = 0 ∨ b.toNat = 1 ∨ b.toNat = 2 := by omega
  rcases hb with hb | hb | hb
  · exact ⟨.exact, (BitVec.eq_of_toNat_eq hb).symm⟩
  · exact ⟨.span, (BitVec.eq_of_toNat_eq hb).symm⟩
  · exact ⟨.masked, (BitVec.eq_of_toNat_eq hb).symm⟩

theorem EntryKind.code_eq_zero {k : EntryKind} : k.code = 0 ↔ k = .exact := by cases k <;> decide

theorem EntryKind.code_eq_one {k : EntryKind} : k.code = 1 ↔ k = .span := by cases k <;> decide

theorem GroupId.exists_toNat {n : Nat} (h : n ≤ 4095) : ∃ g : GroupId, g.toNat = n :=
  ⟨BitVec.ofNat 12 n, by rw [BitVec.toNat_ofNat]; omega⟩

/-- R122, R123: the entry that an accepted SET_ENTRY writes: EXACT holds no second parameter, MASKED a value within its
mask. -/
def Entry.written (p : Port) (enabled : Bool) (k : EntryKind) (f g : GroupId) : Entry :=
  { owner := some p, enabled := enabled, kind := k,
    first := (match k with | .exact => f | .span => f | .masked => f &&& g),
    second := (match k with | .exact => 0 | .span => g | .masked => g) }

variable {en kind fHi fLo sHi sLo : Byte} {k : EntryKind} {f g : GroupId}

/-- R123: the operands of a SET_ENTRY that passes the checks of its fields. -/
theorem entryOf_code (hen : en.toNat ≤ 1) (hf : f.toNat = 256 * fHi.toNat + fLo.toNat)
    (hg : k = .exact ∨ g.toNat = 256 * sHi.toNat + sLo.toNat) (hle : k = .span → f ≤ g) :
    entryOf p en k.code fHi fLo sHi sLo = some (.written p (en != 0) k f g) := by
  unfold entryOf
  rw [boolOfByte_some hen, EntryKind.ofByte_code, groupOfBytes_some hf]
  cases k with
  | exact => rfl
  | span =>
    simp only [groupOfBytes_some (hg.resolve_left nofun), if_pos (hle rfl)]
    rfl
  | masked =>
    simp only [groupOfBytes_some (hg.resolve_left nofun)]
    rfl

/-- R123, check 3: the second parameter of SPAN and MASKED. -/
theorem entryOf_second_out (hk : k ≠ .exact) (h : 4095 < 256 * sHi.toNat + sLo.toNat) :
    entryOf p en k.code fHi fLo sHi sLo = none := by
  unfold entryOf
  rw [EntryKind.ofByte_code, groupOfBytes_none h]
  cases k with
  | exact => exact absurd rfl hk
  | span | masked => cases boolOfByte en <;> cases groupOfBytes fHi fLo <;> rfl

/-- R123, check 4: a SPAN that ends before it begins. -/
theorem entryOf_span_reversed (h : 256 * sHi.toNat + sLo.toNat < 256 * fHi.toNat + fLo.toNat)
    (hf : 256 * fHi.toNat + fLo.toNat ≤ 4095) : entryOf p en (EntryKind.span.code) fHi fLo sHi sLo = none := by
  obtain ⟨f, hf⟩ := GroupId.exists_toNat hf
  obtain ⟨g, hg⟩ := GroupId.exists_toNat (n := 256 * sHi.toNat + sLo.toNat) (by omega)
  have hle : ¬ f ≤ g := by rw [BitVec.le_def]; omega
  unfold entryOf
  rw [EntryKind.ofByte_code, groupOfBytes_some hf, groupOfBytes_some hg]
  cases boolOfByte en with
  | none => rfl
  | some b => exact if_neg hle

/-- R123, checks 3 and 4. -/
theorem entryOf_none
    (h : 1 < en.toNat ∨ 2 < kind.toNat ∨ 4095 < 256 * fHi.toNat + fLo.toNat
      ∨ (kind ≠ 0 ∧ 4095 < 256 * sHi.toNat + sLo.toNat)
      ∨ (kind = 1 ∧ 256 * sHi.toNat + sLo.toNat < 256 * fHi.toNat + fLo.toNat)) :
    entryOf p en kind fHi fLo sHi sLo = none := by
  by_cases hen : 1 < en.toNat
  · simp [entryOf, boolOfByte_none hen]
  by_cases hkind : 2 < kind.toNat
  · simp [entryOf, EntryKind.ofByte_none hkind]
  by_cases hf : 4095 < 256 * fHi.toNat + fLo.toNat
  · simp [entryOf, groupOfBytes_none hf]
  obtain ⟨k, rfl⟩ := EntryKind.exists_code (Nat.not_lt.1 hkind)
  obtain ⟨hk, hs⟩ | ⟨hk, hs⟩ := ((h.resolve_left hen).resolve_left hkind).resolve_left hf
  · exact entryOf_second_out (mt EntryKind.code_eq_zero.2 hk) hs
  · rw [EntryKind.code_eq_one.1 hk]
    exact entryOf_span_reversed hs (Nat.not_lt.1 hf)

/-! ## SET_ENTRY -/

theorem setEntryBody_at {a : Byte} {e : Entry} (rest : List Byte) (ha : a.toNat = i.val)
    (he : entryOf p en kind fHi fLo sHi sLo = some e) :
    setEntryBody p (a :: en :: kind :: fHi :: fLo :: sHi :: sLo :: rest) s = setEntryChecks p i e s := by
  simp [setEntryBody, indexOfByte_some ha, he]

theorem setEntryBody_index_out {a : Byte} (rest : List Byte) (ha : 23 < a.toNat) :
    setEntryBody p (a :: en :: kind :: fHi :: fLo :: sHi :: sLo :: rest) s = (s, .badArgument) := by
  simp [setEntryBody, indexOfByte_none (n := 24) ha]

theorem setEntryBody_fields_out {a : Byte} (rest : List Byte) (he : entryOf p en kind fHi fLo sHi sLo = none) :
    setEntryBody p (a :: en :: kind :: fHi :: fLo :: sHi :: sLo :: rest) s = (s, .badArgument) := by
  simp [setEntryBody, he]

theorem setEntryChecks_elsewhere {q : Port} (e : Entry) (hq : q ≠ p) (h : (s.entry i).owner = some q) :
    setEntryChecks p i e s = (s, .ownedElsewhere) := by
  simp [setEntryChecks, h, hq]

theorem setEntryChecks_taken (e : Entry) (h : (s.entry i).owner = none ∨ (s.entry i).owner = some p) :
    setEntryChecks p i e s = (s.putEntry i e, .ok) := by
  rcases h with h | h <;> simp [setEntryChecks, h]

/-- R121: a command of the port that writes an entry. -/
theorem State.takeCommand_putEntry (c : Command) {body : State → State × Result} {e : Entry} (hin : s.InTransaction p)
    (hb : body (s.closeTransaction p) = ((s.closeTransaction p).putEntry i e, .ok)) :
    s.Answered (s.takeCommand p c body) p .ok [.entries] ∧ (s.takeCommand p c body).entry i = e
      ∧ ∀ j, j ≠ i → (s.takeCommand p c body).entry j = s.entry j := by
  obtain ⟨heq, hans⟩ := State.takeCommand_taken c hin hb (State.putEntry_only _ i e) (by decide) (by decide)
  refine ⟨hans, ?_⟩
  rw [heq]
  exact ⟨by simp, fun j hj => by simp [hj]⟩

/-- Settles O32: the operands give the entry, and the owner of the entry lets it be written. -/
theorem setEntryWritesTheEntry : Obligations.SetEntryWritesTheEntry := by
  rintro s p e en kind fHi fLo sHi sLo rest f g k hin ho hen rfl hf hg hle
  have ha : (BitVec.ofNat 8 e.val).toNat = e.val := by rw [BitVec.toNat_ofNat]; omega
  have hbody := (setEntryBody_at (s := s.closeTransaction p) rest ha (entryOf_code (p := p) hen hf hg hle)).trans
    (setEntryChecks_taken _ (by rwa [State.closeTransaction_entry]))
  exact ⟨_, rfl, State.takeCommand_putEntry .setEntry hin hbody⟩

/-- Settles O33: an index or a field out of range, then an entry of another port. -/
theorem setEntryRefusals : Obligations.SetEntryRefusals := by
  intro s p hin a en kind fHi fLo sHi sLo rest
  refine ⟨fun hout => ⟨_, rfl, State.takeCommand_refused .setEntry hin ?_⟩,
    fun e q ha hq ho hen hkind hf hs hle => ⟨_, rfl, State.takeCommand_refused .setEntry hin ?_⟩⟩
  · rcases hout with ha | hout
    · exact setEntryBody_index_out rest ha
    · exact setEntryBody_fields_out rest (entryOf_none hout)
  · obtain ⟨k, rfl⟩ := EntryKind.exists_code hkind
    obtain ⟨f, hf⟩ := GroupId.exists_toNat hf
    obtain ⟨g, hg⟩ : ∃ g : GroupId, k = .exact ∨ g.toNat = 256 * sHi.toNat + sLo.toNat := by
      rcases hs with hk | hs
      · exact ⟨0, .inl (EntryKind.code_eq_zero.1 hk)⟩
      · exact (GroupId.exists_toNat hs).imp fun _ => .inr
    have hfg : k = .span → f ≤ g := by
      rintro rfl
      rw [BitVec.le_def, hf, hg.resolve_left nofun]
      exact hle.resolve_left fun h => h rfl
    exact (setEntryBody_at rest ha (entryOf_code hen hf hg hfg)).trans
      (setEntryChecks_elsewhere _ hq (by rwa [State.closeTransaction_entry]))

/-! ## FREE_ENTRY -/

theorem freeEntryBody_out {a : Byte} (rest : List Byte) (h : 23 < a.toNat) :
    freeEntryBody p (a :: rest) s = (s, .badArgument) := by
  simp [freeEntryBody, indexOfByte_none (n := 24) h]

theorem freeEntryBody_notOwner {a : Byte} (rest : List Byte) (ha : a.toNat = i.val)
    (h : (s.entry i).owner ≠ some p) : freeEntryBody p (a :: rest) s = (s, .notOwner) := by
  simp [freeEntryBody, indexOfByte_some ha, h]

theorem freeEntryBody_owner {a : Byte} (rest : List Byte) (ha : a.toNat = i.val)
    (h : (s.entry i).owner = some p) : freeEntryBody p (a :: rest) s = (s.putEntry i .free, .ok) := by
  simp [freeEntryBody, indexOfByte_some ha, h]

/-- Settles O34: the checks of FREE_ENTRY in their order, then the own entry. -/
theorem freeEntryFreesOwnEntry : Obligations.FreeEntryFreesOwnEntry := by
  intro s p hin
  refine ⟨⟨_, rfl, State.takeCommand_refused .freeEntry hin rfl⟩, fun a rest => ⟨fun hout => ?_, fun e ha =>
    ⟨fun ho => ?_, fun ho => ?_⟩⟩⟩
  · exact ⟨_, rfl, State.takeCommand_refused .freeEntry hin (freeEntryBody_out rest hout)⟩
  · exact ⟨_, rfl, State.takeCommand_refused .freeEntry hin
      (freeEntryBody_notOwner rest ha (by rwa [State.closeTransaction_entry]))⟩
  · exact ⟨_, rfl, State.takeCommand_putEntry .freeEntry hin
      (freeEntryBody_owner rest ha (by rwa [State.closeTransaction_entry]))⟩

end Sys2Proof.Machine
end

section
/-! O35: which group ids an entry admits (R122), and the match of a port: kind before index (R127). -/

namespace Sys2Proof.Machine

/-! ## Admission -/

/-- R122: two ids agree in every bit that the mask has set. -/
theorem and_eq_and_iff {w : Nat} (g f m : BitVec w) :
    g &&& m = f &&& m ↔ ∀ b, b < w → m.getLsbD b = true → g.getLsbD b = f.getLsbD b := by
  refine ⟨fun h b _ hb => ?_, fun h => BitVec.eq_of_getLsbD_eq fun b hb => ?_⟩
  · have hbit := congrArg (·.getLsbD b) h
    simpa only [BitVec.getLsbD_and, hb, Bool.and_true] using hbit
  · rw [BitVec.getLsbD_and, BitVec.getLsbD_and]
    cases hm : m.getLsbD b with
    | false => rw [Bool.and_false, Bool.and_false]
    | true => rw [h b hb hm]

/-- R122: the set that an entry describes. -/
theorem Entry.describes_iff (e : Entry) (g : GroupId) :
    e.describes g = true
      ↔ (e.kind = .exact → g = e.first)
        ∧ (e.kind = .span → e.first.toNat ≤ g.toNat ∧ g.toNat ≤ e.second.toNat)
        ∧ (e.kind = .masked → ∀ b, b < 12 → e.second.getLsbD b = true → g.getLsbD b = e.first.getLsbD b) := by
  unfold Entry.describes
  split
  next hk => simp [hk]
  next hk => simp [hk, BitVec.le_def]
  next hk => simp only [hk, beq_iff_eq, and_eq_and_iff, reduceCtorEq, false_implies, true_and, true_implies]

theorem Entry.admitsFor_iff (e : Entry) (p : Port) (g : GroupId) :
    e.admitsFor p g = true ↔ e.owner = some p ∧ e.enabled = true ∧ e.describes g = true := by
  simp [Entry.admitsFor, and_assoc]

/-! ## The match of a port -/

variable {s : State} {p : Port} {g : GroupId} {k : EntryKind} {i : EntryNo}

theorem EntryKind.code_injective {k l : EntryKind} (h : k.code.toNat = l.code.toNat) : k = l := by
  simpa using congrArg EntryKind.ofByte (BitVec.eq_of_toNat_eq h)

/-- R127: no entry of the kind admits the id. -/
theorem State.matchKind_none :
    s.matchKind p g k = none ↔ ∀ i, (s.entry i).kind = k → (s.entry i).admitsFor p g = false := by
  simp [State.matchKind, List.find?_eq_none]

/-- R127: the match among the entries of a kind is the first of them that admits the id. -/
theorem State.matchKind_some (h : s.matchKind p g k = some i) :
    (s.entry i).kind = k ∧ (s.entry i).admitsFor p g = true
      ∧ ∀ j, (s.entry j).kind = k → (s.entry j).admitsFor p g = true → i ≤ j := by
  obtain ⟨hi, n, hn, hin, hbefore⟩ := List.find?_eq_some_iff_getElem.1 h
  rw [List.getElem_finRange] at hin
  rw [Bool.and_eq_true, beq_iff_eq] at hi
  refine ⟨hi.1, hi.2, fun j hj ha => ?_⟩
  by_contra hlt
  have hjn : j.val < n := by
    rw [← hin] at hlt
    exact Nat.not_le.1 hlt
  have hb := hbefore j hjn
  simp [hj, ha] at hb

/-- R127: the match of a port is the match among the entries of its kind, where no kind before it has one. -/
theorem State.groupMatch_some (h : s.groupMatch p g = some i) :
    ∃ k, s.matchKind p g k = some i ∧ ∀ l : EntryKind, l.code.toNat < k.code.toNat → s.matchKind p g l = none := by
  unfold State.groupMatch at h
  rcases Option.or_eq_some_iff.1 h with h | ⟨he, h⟩
  · exact ⟨.exact, h, fun l hl => absurd hl (Nat.not_lt_zero _)⟩
  rcases Option.or_eq_some_iff.1 h with h | ⟨hs, h⟩
  · refine ⟨.span, h, fun l hl => ?_⟩
    cases l with
    | exact => exact he
    | span | masked => exact absurd hl (by decide)
  · refine ⟨.masked, h, fun l hl => ?_⟩
    cases l with
    | exact => exact he
    | span => exact hs
    | masked => exact absurd hl (by decide)

theorem State.groupMatch_none : s.groupMatch p g = none ↔ ∀ i, (s.entry i).admitsFor p g = false := by
  simp only [State.groupMatch, Option.or_eq_none_iff, State.matchKind_none]
  refine ⟨fun ⟨he, hs, hm⟩ i => ?_, fun h => ⟨fun i _ => h i, fun i _ => h i, fun i _ => h i⟩⟩
  cases hk : (s.entry i).kind with
  | exact => exact he i hk
  | span => exact hs i hk
  | masked => exact hm i hk

/-- Settles O35: admission by the kind of the entry; the match by kind, and among the entries of its kind by index. -/
theorem entryMatchGoesByKindThenIndex : Obligations.EntryMatchGoesByKindThenIndex := by
  refine ⟨fun e p g => by rw [e.admitsFor_iff, e.describes_iff], fun s p g => ⟨State.groupMatch_none, fun i h => ?_⟩⟩
  obtain ⟨k, hk, hbefore⟩ := State.groupMatch_some h
  obtain ⟨hkind, hadmits, hfirst⟩ := State.matchKind_some hk
  refine ⟨hadmits, fun j hj => ?_⟩
  rw [hkind]
  rcases Nat.lt_trichotomy k.code.toNat (s.entry j).kind.code.toNat with hlt | heq | hgt
  · exact .inl hlt
  · have hkj := EntryKind.code_injective heq
    exact .inr ⟨hkj, hfirst j hkj.symm hj⟩
  · have hnone := State.matchKind_none.1 (hbefore _ hgt) j rfl
    rw [hj] at hnone
    cases hnone

end Sys2Proof.Machine
end

section
/-! O49: group delivery (R128 to R130) of a GOOD GROUP frame that was received in ACTIVE: what each port takes of it, and
the end of the reception slot and of the line time that follow it. -/

namespace Sys2Proof.Machine

/-! ## GOOD GROUP frames -/

/-- R5: a GOOD frame has passed the checks of its header, so that checks 3 and 4 decide it. -/
theorem classify_good_tail {cs : List RxChar} (h : (classify cs).cls = .good) :
    ∃ h0 h1 h2 len tail, classify cs = classifyTail h0 h1 h2 len tail := by
  match cs with
  | [] => cases h
  | [pre] =>
    rw [classify] at h
    split at h <;> cases h
  | pre :: h0 :: rest =>
    rcases hd : isDisturbance pre h0 with _ | _
    · rcases hs : headerSettles (groupBit h0.value) 1 (rest.take 3) with _ | cls
      · match rest with
        | h1 :: h2 :: len :: tail => exact ⟨h0, h1, h2, len.value, tail, classify_whole tail hd hs⟩
        | [] | [_] | [_, _] =>
          rw [(classify_cut hd hs (by simp)).1] at h
          cases h
      · rw [(classify_settled hd hs).1] at h
        exact absurd (h ▸ hs) headerSettles_ne_good
    · rw [(classify_disturbance rest hd).1] at h
      cases h

/-- R5, check 4: only at its last check byte is a frame found GOOD. -/
theorem classifyTail_good_atCheckByte {h0 h1 h2 : RxChar} {len : Byte} {tail : List RxChar}
    (h : (classifyTail h0 h1 h2 len tail).cls = .good) : (classifyTail h0 h1 h2 len tail).atCheckByte = true := by
  unfold classifyTail at h ⊢
  simp only [] at h ⊢
  split at h
  next => cases h
  next hc => rw [if_neg hc]

theorem classify_good_atCheckByte {cs : List RxChar} (h : (classify cs).cls = .good) :
    (classify cs).atCheckByte = true := by
  obtain ⟨h0, h1, h2, len, tail, e⟩ := classify_good_tail h
  rw [e] at h ⊢
  exact classifyTail_good_atCheckByte h

/-- R169: the kind bit of a GROUP frame. -/
theorem Classified.kindBit_of_group {v : Classified} {g : GroupId} (h : v.body = .group g) : v.h0.getLsbD 2 = true := by
  unfold Classified.body at h
  split at h
  next hg => exact hg
  · cases h

/-! ## Group delivery at a port -/

variable {s : State} {g : GroupId} {p : Port} {e : EntryNo}

/-- R129, R142: an append at `p` is made from queue and engine of `p` alone. -/
theorem State.SameAt.offer {t : State} (h : s.SameAt t p) (d : Delivery) :
    (t.offer p d).state.queue p = (s.offer p d).state.queue p
      ∧ (t.offer p d).state.engine p = (s.offer p d).state.engine p := by
  have ho := State.offer_congr (x := (s.engine p).flags.line) d h.queue h.engine
  obtain ⟨x, y, hxy⟩ := s.offer_onlyRxLoss p d p
  rw [hxy] at ho ⊢
  exact ho

theorem allPorts_nodup : allPorts.Nodup := by decide

theorem mem_allPorts (p : Port) : p ∈ allPorts := by
  revert p
  decide

theorem State.deliverGroupAt_actsAlone (n : NodeAddr) (g : GroupId) (k : Nat) (i : SlotNo) :
    ActsAlone (State.deliverGroupAt n g k i) := by
  intro p q s hq
  unfold State.deliverGroupAt
  split
  · exact s.offer_sameAt _ hq
  · exact .refl s q

section
variable (n : NodeAddr) (k : Nat)

/-- R129: with a slot, each port takes its part of the delivery from its own queue and engine. -/
theorem State.deliverGroup_slot_at {i : SlotNo} (hi : s.heldSlot = some i) (g : GroupId) (p : Port) :
    ∃ w, s.SameAt w p ∧ (State.deliverGroupAt n g k i p w).state.SameAt (s.deliverGroup n g k).state p := by
  simp only [State.deliverGroup, hi]
  exact (State.deliverGroupAt_actsAlone n g k i).each_once allPorts_nodup (mem_allPorts p) (.start s)

/-- R130: without a slot, each port takes its part of the loss from its own queue and engine. -/
theorem State.deliverGroup_noSlot_at (hi : s.heldSlot = none) (g : GroupId) (p : Port) :
    ∃ w, s.SameAt w p ∧ (State.loseGroupAt g p w).state.SameAt (s.deliverGroup n g k).state p := by
  simp only [State.deliverGroup, hi]
  exact (State.loseGroupAt_actsAlone g).each_once allPorts_nodup (mem_allPorts p) (.start s)

/-- R128: a port without a match is left alone. -/
theorem State.deliverGroup_noMatch (hm : s.groupMatch p g = none) : s.SameAt (s.deliverGroup n g k).state p := by
  cases hi : s.heldSlot with
  | some i =>
    obtain ⟨w, hw, hf⟩ := State.deliverGroup_slot_at n k hi g p
    rw [State.deliverGroupAt, (hw.groupMatch g).trans hm] at hf
    exact hw.trans hf
  | none =>
    obtain ⟨w, hw, hf⟩ := State.deliverGroup_noSlot_at n k hi g p
    rw [State.loseGroupAt, (hw.groupMatch g).trans hm] at hf
    exact hw.trans hf

/-- R129: with a slot, a port that matches is offered one record that refers to it. -/
theorem State.deliverGroup_match (hm : s.groupMatch p g = some e) {i : SlotNo} (hi : s.heldSlot = some i) :
    let u := (s.offer p { origin := .lineGroup n g e, arrival := s.line.round, length := k, slot := i }).state
    (s.deliverGroup n g k).state.queue p = u.queue p ∧ (s.deliverGroup n g k).state.engine p = u.engine p := by
  obtain ⟨w, hw, hf⟩ := State.deliverGroup_slot_at n k hi g p
  simp only [State.deliverGroupAt, (hw.groupMatch g).trans hm, hw.round] at hf
  rw [hf.queue, hf.engine]
  exact hw.offer _

/-- R130, R143, R144: without a slot, a port that matches counts one loss. -/
theorem State.deliverGroup_loss (hm : s.groupMatch p g = some e) (hi : s.heldSlot = none) :
    (s.deliverGroup n g k).state.queue p
        = { s.queue p with pendingLosses := min 255 ((s.queue p).pendingLosses + 1) }
      ∧ ((s.deliverGroup n g k).state.engine p).flags
        = { (s.engine p).flags with loss := (s.engine p).flags.loss || (s.queue p).pendingLosses == 0 } := by
  obtain ⟨w, hw, hf⟩ := State.deliverGroup_noSlot_at n k hi g p
  simp only [State.loseGroupAt, (hw.groupMatch g).trans hm, Upd.start_state] at hf
  rw [hf.queue, hf.engine, State.countLoss_queue, State.countLoss_engine, if_pos rfl, if_pos rfl, hw.queue, hw.engine]
  exact ⟨rfl, rfl⟩

end

/-- R136: deliveries write no slot's bytes. -/
theorem State.deliverGroup_bytes (s : State) (n : NodeAddr) (g : GroupId) (k : Nat) :
    (s.deliverGroup n g k).state.store.bytes = s.store.bytes := by
  unfold State.deliverGroup
  split
  · refine Upd.each_keeps (fun s => s.store.bytes) allPorts _ (fun p _ t => ?_) (.start s)
    unfold State.deliverGroupAt
    split
    · exact t.offer_bytes p _
    · rfl
  · exact State.each_loseGroupAt_bytes (.start s) allPorts g

/-! ## What follows on the delivery -/

variable {rx : Reception} {v : Classified}

/-- R12, R20, R44: in ACTIVE, a GOOD reception end counts nothing and establishes no sync. -/
theorem State.receptionCounted_active (hg : v.cls = .good) (hl : s.member.lineState = .active) :
    s.receptionCounted v = s.keepPayload v.payload := by
  have hns : ¬ s.syncsBy v = true := by
    rw [s.syncsBy_iff, hl]
    exact fun h => absurd h.1 (by decide)
  rw [s.receptionCounted_of_not_syncs hns, hg]
  rfl

/-- R128: group delivery takes a GOOD GROUP frame that was received in ACTIVE, on the state that keeps its payload. -/
theorem State.receptionDecided_group (hg : v.cls = .good) (hf : v.frameStart = true) (ha : rx.activeAtStart = true)
    (hl : s.member.lineState = .active) (hb : v.body = .group g) :
    s.receptionDecided rx v = (s.keepPayload v.payload).deliverGroup v.sender g v.payload.length := by
  simp [State.receptionDecided, State.decideReception, State.receptionCounted_active hg hl, hg, hf, ha, hb]

/-- R4, R18: the line unit before the local pass. -/
theorem State.receptionOver_line (s : State) (rx : Reception) (v : Classified) :
    (s.receptionOver rx v).line
      = (s.receptionDecided rx v).state.line.receptionOver v rx (s.receptionDecided rx v).state.tracking := by
  have hs := (State.endReceptionSlot_eq (s.receptionDecided rx v).state).1
  have ht : (s.receptionDecided rx v).state.endReceptionSlot.state.tracking
      = (s.receptionDecided rx v).state.tracking := by
    simp only [State.tracking, State.endReceptionSlot_member]
  rw [State.receptionOver, State.afterReceptionEnd_line _ v rx (by rw [hs]), hs, ht]
  unfold LineUnit.receptionOver
  split <;> rfl

/-- R4, R18, log 14: where no LOCAL mailbox is pending, line time and slot of a GROUP frame are over at its last check
byte, and all else stands as its delivery `w` leaves it. -/
theorem State.receptionEnd_group {w : State} (hn : s.NoLocalPending) (hv : v.atCheckByte = true)
    (hb : v.body = .group g) (hd : (s.receptionDecided rx v).state = w) :
    (s.receptionEnd rx v).line
        = { w.line with holdFlag := false, activity := .idle, reception := none, betweenTurns := w.tracking }
      ∧ (s.receptionEnd rx v).store = { w.store with rxSlot := none }
      ∧ w.OnlyChanges (s.receptionEnd rx v) [.line, .store] := by
  have hk : groupBit v.h0 = true := Classified.kindBit_of_group hb
  rw [State.receptionEnd_eq_over_of_none hn, s.receptionOver_line, s.receptionOver_store, ← hd]
  refine ⟨?_, rfl, s.receptionOver_only rx v⟩
  simp only [LineUnit.receptionOver, hv, hk, Bool.and_self, if_true]

theorem State.withBytes_sameAt (s : State) (bytes : Vector (Vector Byte 64) 32) (p : Port) :
    s.SameAt (s.withBytes bytes) p :=
  .of_only (s.withBytes_only bytes) (by decide) (by decide) rfl rfl

/-- Settles O49: the delivery on the state that keeps the payload, port by port; with no LOCAL mailbox pending, the end of
slot and line time is all that follows. -/
theorem groupDeliveryOffersOrCountsLosses : Obligations.GroupDeliveryOffersOrCountsLosses := by
  intro s rx rest v g hr hp ha hl hv hg hb hn
  subst hv
  obtain ⟨hstart, hlen⟩ := classify_good hg
  have hend := classify_good_atCheckByte hg
  have hexec := execReceptionEnd_eq s rx rest hr (by rw [hp]; exact hstart)
  have hd := State.receptionDecided_group hg hstart ha hl hb
  generalize classify (rx.chars ++ rest) = v at *
  obtain ⟨bytes, hu, hother, hown⟩ := s.keepPayload_eq v.payload
  rw [hu] at hd
  have hkeep := s.withBytes_sameAt bytes
  have hw := (s.withBytes bytes).deliverGroup_only v.sender g v.payload.length
  obtain ⟨hline, hstore, ho⟩ := State.receptionEnd_group hn hend hb (congrArg Upd.state hd)
  rw [hw.line (by decide)] at hline
  have htrack : ((s.withBytes bytes).deliverGroup v.sender g v.payload.length).state.tracking = true :=
    (State.tracking_iff _).2 (.inl ((congrArg (·.lineState)
      (hw.member (by decide) (by decide) (by decide))).trans hl))
  have hqueue := ho.queue (by decide)
  have hengine := ho.engine (by decide)
  have hbytes : (s.receptionEnd rx v).store.bytes = bytes :=
    (congrArg FrameStore.bytes hstore).trans ((s.withBytes bytes).deliverGroup_bytes _ _ _)
  refine ⟨_, hexec, by rw [hline], by rw [hline], by rw [hline, htrack], s.receptionEnd_rxSlot rx v, by rw [hline],
    by rw [hline]; rfl, (((s.withBytes_only bytes).mono (by decide)).seq hw (by decide)).seq ho (by decide),
    fun p hm => ?_, fun i p e hi hm => ?_, fun i hi => ?_, fun j hj => ?_, fun p e hi hm => ?_⟩
  · have hat := (hkeep p).trans
      (State.deliverGroup_noMatch v.sender v.payload.length (((hkeep p).groupMatch g).trans hm))
    rw [hqueue, hengine]
    exact ⟨hat.queue, hat.engine⟩
  · obtain ⟨hq, he⟩ := State.deliverGroup_match (s := s.withBytes bytes) v.sender v.payload.length
      (((hkeep p).groupMatch g).trans hm) hi
    obtain ⟨hq', he'⟩ := (hkeep p).offer
      { origin := .lineGroup v.sender g e, arrival := s.line.round, length := v.payload.length, slot := i }
    rw [hqueue, hengine]
    exact ⟨hq.trans hq', he.trans he'⟩
  · rw [hbytes]
    exact (hown i hi).trans (List.take_of_length_le hlen)
  · rw [hbytes]
    exact hother j hj
  · rw [hqueue, hengine]
    exact State.deliverGroup_loss (s := s.withBytes bytes) v.sender v.payload.length
      (((hkeep p).groupMatch g).trans hm) hi

end Sys2Proof.Machine
end

section
/-! The frame store as a whole (R135, R139, R140, R145): the invariant of O58, with the slot to which no record refers as a
parameter, since a delivery refers to the reception slot before that slot is given up (R117, R129, R137); and what the
operations of the frame store keep of it. -/

namespace Sys2Proof.Machine

variable {s t : State} {o : Option SlotNo} {p : Port} {i : SlotNo}

/-! ## The invariant -/

/-- R145: RX of the port is set exactly while its queue is non-empty. -/
def State.RxFollows (s : State) (p : Port) : Prop := (s.engine p).flags.rx = !(s.queue p).records.isEmpty

/-- R135, R139, R140, R145: holder counts, queues and RX agree, and no record refers to the slot `o`. -/
structure State.StoreSafe (s : State) (o : Option SlotNo) : Prop where
  holders : ∀ i : SlotNo, s.store.holders[i] = s.refsTo i
  apart : ∀ i : SlotNo, o = some i → s.refsTo i = 0
  queues : ∀ p, (s.queue p).Sound
  rx : ∀ p, s.RxFollows p

theorem State.storeSafe_iff (s : State) : s.StoreSafe s.store.rxSlot ↔ s.StoreSound :=
  ⟨fun h => ⟨⟨h.holders, h.apart⟩, h.queues, h.rx⟩, fun ⟨⟨hh, ha⟩, hq, hrx⟩ => ⟨hh, ha, hq, hrx⟩⟩

theorem State.StoreSound.safe (h : s.StoreSound) : s.StoreSafe s.store.rxSlot := s.storeSafe_iff.2 h

/-- The reception slot is left out of account. -/
theorem State.StoreSafe.weaken (h : s.StoreSafe o) : s.StoreSafe none := ⟨h.holders, nofun, h.queues, h.rx⟩

/-! ## References of the queues to a slot -/

theorem port_cases (p : Port) : p = 0 ∨ p = 1 ∨ p = 2 := by
  revert p
  decide

theorem State.refsAt_congr (h : (t.queue p).records = (s.queue p).records) (i : SlotNo) : t.refsAt i p = s.refsAt i p := by
  simp only [State.refsAt, h]

/-- R135: the queue of one port alone changes what refers to a slot. -/
theorem State.refsTo_write (hq : ∀ q, q ≠ p → t.queue q = s.queue q) (i : SlotNo) :
    t.refsTo i + s.refsAt i p = s.refsTo i + t.refsAt i p := by
  have hother : ∀ q, q ≠ p → t.refsAt i q = s.refsAt i q := fun q hne => State.refsAt_congr (by rw [hq q hne]) i
  have h0 := hother 0
  have h1 := hother 1
  have h2 := hother 2
  unfold State.refsTo
  rcases port_cases p with rfl | rfl | rfl
  · have := h1 (by decide); have := h2 (by decide); omega
  · have := h0 (by decide); have := h2 (by decide); omega
  · have := h0 (by decide); have := h1 (by decide); omega

theorem State.refsAt_le_refsTo (s : State) (i : SlotNo) (p : Port) : s.refsAt i p ≤ s.refsTo i := by
  unfold State.refsTo
  rcases port_cases p with rfl | rfl | rfl <;> omega

theorem State.refsAt_eq_zero_iff (s : State) (i : SlotNo) (p : Port) :
    s.refsAt i p = 0 ↔ i ∉ (s.queue p).records.map (·.slot) := by
  simp [State.refsAt, List.countP_eq_zero]

/-- R141: a record at the tail refers to its slot once more. -/
theorem State.refsAt_append {l : List QueueRecord} {r : QueueRecord} (h : (s.queue p).records = l ++ [r]) (i : SlotNo) :
    s.refsAt i p = l.countP (fun x => x.slot == i) + if i = r.slot then 1 else 0 := by
  simp only [State.refsAt, h, List.countP_append, List.countP_singleton, beq_iff_eq, eq_comm (a := i)]

theorem getElem_set_slot (v : Vector Nat 32) (i j : SlotNo) (n : Nat) : (v.set i n)[j] = if j = i then n else v[j] := by
  simp only [Fin.getElem_fin, Vector.getElem_set, Fin.val_inj, eq_comm (a := j)]

/-! ## Writes of one port -/

/-- What leaves holder counts, queues and RX, leaves the invariant. -/
theorem State.StoreSafe.congr (h : s.StoreSafe o) (hh : t.store.holders = s.store.holders)
    (hq : ∀ p, t.queue p = s.queue p) (hrx : ∀ p, (t.engine p).flags.rx = (s.engine p).flags.rx) : t.StoreSafe o := by
  have hrefs : ∀ i, t.refsTo i = s.refsTo i := fun i => by simp only [State.refsTo, State.refsAt, hq]
  exact ⟨fun i => by rw [hh, hrefs]; exact h.holders i, fun i hi => by rw [hrefs]; exact h.apart i hi,
    fun p => by rw [hq]; exact h.queues p, fun p => by rw [State.RxFollows, hrx, hq]; exact h.rx p⟩

/-- One port is written: its queue is sound, each holder count moves with the references of that queue, and RX follows. -/
theorem State.StoreSafe.write (h : s.StoreSafe o)
    (hother : ∀ q, q ≠ p → t.queue q = s.queue q ∧ (t.engine q).flags.rx = (s.engine q).flags.rx)
    (hsound : (t.queue p).Sound)
    (hholders : ∀ i : SlotNo, t.store.holders[i] + s.refsAt i p = s.store.holders[i] + t.refsAt i p)
    (hapart : ∀ i : SlotNo, o = some i → t.refsAt i p = 0) (hrx : t.RxFollows p) : t.StoreSafe o := by
  have hrefs := State.refsTo_write (s := s) (t := t) fun q hq => (hother q hq).1
  refine ⟨fun i => ?_, fun i hi => ?_, fun q => ?_, fun q => ?_⟩
  · have := hrefs i
    have := hholders i
    have := h.holders i
    omega
  · have := hrefs i
    have := hapart i hi
    have := h.apart i hi
    omega
  · by_cases hq : q = p
    · rw [hq]; exact hsound
    · rw [(hother q hq).1]; exact h.queues q
  · by_cases hq : q = p
    · rw [hq]; exact hrx
    · rw [State.RxFollows, (hother q hq).1, (hother q hq).2]; exact h.rx q

/-- Settings, losses and pins of one queue are written; its records, and all holder counts, stay. -/
theorem State.StoreSafe.write_settings (h : s.StoreSafe o)
    (hother : ∀ q, q ≠ p → t.queue q = s.queue q) (hsound : (t.queue p).Sound)
    (hrecords : (t.queue p).records = (s.queue p).records) (hstore : t.store.holders = s.store.holders)
    (hrx : ∀ q, (t.engine q).flags.rx = (s.engine q).flags.rx) : t.StoreSafe o := by
  have hat := State.refsAt_congr hrecords
  refine h.write (fun q hq => ⟨hother q hq, hrx q⟩) hsound (fun i => by rw [hstore, hat]) (fun i hi => ?_) ?_
  · have := s.refsAt_le_refsTo i p
    have := h.apart i hi
    rw [hat]
    omega
  · rw [State.RxFollows, hrx, hrecords]
    exact h.rx p

/-! ## Sound queues -/

section
variable {q : Queue}

/-- R141: a record of another slot at the tail of a queue with room. -/
theorem Queue.Sound.append (h : q.Sound) (hroom : q.full = false) {r : QueueRecord} (hr : r.slot ∉ q.records.map (·.slot))
    (hl : r.lossesBefore ≤ 255) : Queue.Sound { q with records := q.records ++ [r], pendingLosses := 0 } := by
  obtain ⟨h1, h16, -, hslots, -, hlosses, -⟩ := h
  simp only [Queue.full, decide_eq_false_iff_not, Nat.not_le] at hroom
  refine ⟨h1, h16, by simpa using hroom, ?_, Nat.zero_le _, fun x hx => ?_, fun _ => by simp⟩
  · rw [List.map_append]
    exact hslots.append (List.nodup_singleton _) (by simpa using hr)
  · rcases List.mem_append.1 hx with hx | hx
    · exact hlosses x hx
    · rw [List.mem_singleton.1 hx]; exact hl

/-- R143: the pending losses stop at 255. -/
theorem Queue.Sound.countLoss (h : q.Sound) (n : Nat) :
    Queue.Sound { q with pendingLosses := min 255 (q.pendingLosses + n) } := by
  obtain ⟨h1, h16, hlen, hslots, -, hlosses, hpin⟩ := h
  exact ⟨h1, h16, hlen, hslots, Nat.min_le_left _ _, hlosses, hpin⟩

/-- R142: the tail leaves a queue; a pin is on a head that stays. -/
theorem Queue.Sound.dropTail (h : q.Sound) (hpin : q.tailPinned = false) {front : List QueueRecord} {tail : QueueRecord}
    (hq : q.records = front ++ [tail]) : Queue.Sound { q with records := front } := by
  obtain ⟨h1, h16, hlen, hslots, hp, hlosses, -⟩ := h
  rw [hq] at hlen hslots hlosses
  simp only [List.length_append, List.length_cons, List.length_nil] at hlen
  refine ⟨h1, h16, by simp only []; omega, ?_, hp, fun x hx => hlosses x (List.mem_append_left _ hx), fun hhead => ?_⟩
  · rw [List.map_append] at hslots
    exact hslots.of_append_left
  · rintro rfl
    have hhead : q.headPinned = true := hhead
    simp [Queue.tailPinned, hq, hhead] at hpin

/-- R147: the head leaves a queue on which no transaction pin is held. -/
theorem Queue.Sound.dropHead (h : q.Sound) (hpin : q.txnPin = false) {r : QueueRecord} {rest : List QueueRecord}
    (hq : q.records = r :: rest) : Queue.Sound { q with records := rest, pin := false } := by
  obtain ⟨h1, h16, hlen, hslots, hp, hlosses, -⟩ := h
  rw [hq] at hlen hslots hlosses
  simp only [List.length_cons] at hlen
  rw [List.map_cons, List.nodup_cons] at hslots
  refine ⟨h1, h16, by simp only []; omega, hslots.2, hp, fun x hx => hlosses x (List.mem_cons_of_mem _ hx), fun hhead => ?_⟩
  simp [Queue.headPinned, hpin] at hhead

/-- R146: pins are released at any time, and held on a queue with a head. -/
theorem Queue.Sound.setPins (h : q.Sound) {a b : Bool} (hpin : a || b → q.headPinned = true ∨ q.records ≠ []) :
    Queue.Sound { q with pin := a, txnPin := b } := by
  obtain ⟨h1, h16, hlen, hslots, hp, hlosses, hhead⟩ := h
  exact ⟨h1, h16, hlen, hslots, hp, hlosses, fun hab => (hpin hab).elim hhead id⟩

end

/-! ## Appends and losses -/

/-- R141: an append to a queue with room, of a record of a slot to which the queue does not refer. -/
theorem State.StoreSafe.appendRecord (h : s.StoreSafe o) {d : Delivery} (hroom : (s.queue p).full = false)
    (hfresh : s.refsAt d.slot p = 0) (ho : o ≠ some d.slot) : (s.appendRecord p d).StoreSafe o := by
  have hslot := (s.refsAt_eq_zero_iff d.slot p).1 hfresh
  obtain ⟨-, -, -, -, hlosses, -, -⟩ := h.queues p
  have hq : (s.appendRecord p d).queue p
      = { s.queue p with records := (s.queue p).records ++ [d.record (s.queue p).pendingLosses], pendingLosses := 0 } := by
    rw [State.appendRecord_queue, if_pos rfl]
  have hrefs : ∀ i, (s.appendRecord p d).refsAt i p = s.refsAt i p + if i = d.slot then 1 else 0 :=
    fun i => State.refsAt_append (by rw [hq]) i
  refine h.write (p := p) (fun q hne => ?_) ?_ (fun i => ?_) (fun i hi => ?_) ?_
  · rw [State.appendRecord_queue, State.appendRecord_engine, if_neg hne, if_neg hne]
    exact ⟨rfl, rfl⟩
  · rw [hq]
    exact (h.queues p).append hroom hslot hlosses
  · rw [State.appendRecord_store, getElem_set_slot, hrefs]
    split
    next e => rw [e]; omega
    next => omega
  · have hne : i ≠ d.slot := by rintro rfl; exact ho hi
    have := s.refsAt_le_refsTo i p
    have := h.apart i hi
    rw [hrefs, if_neg hne]
    omega
  · rw [State.RxFollows, State.appendRecord_engine, if_pos rfl, hq]
    simp

/-- R143: a loss. -/
theorem State.StoreSafe.countLoss (h : s.StoreSafe o) (p : Port) (n : Nat) : (s.countLoss p n).StoreSafe o := by
  have hq : (s.countLoss p n).queue p
      = { s.queue p with pendingLosses := min 255 ((s.queue p).pendingLosses + n) } := by
    rw [State.countLoss_queue, if_pos rfl]
  refine h.write_settings (p := p) (fun q hne => (s.countLoss_other n hne).1) ?_ (by rw [hq])
    (by rw [State.countLoss_store]) (fun q => ?_)
  · rw [hq]
    exact (h.queues p).countLoss n
  · rw [State.countLoss_engine]
    split
    next e => rw [e]
    next => rfl

/-- R142: of the frame store a displacement moves the holder counts of the tail's slot and of the new record's. -/
theorem State.displace_store (s : State) (p : Port) (tail : QueueRecord) (d : Delivery) :
    (s.displace p tail d).state.store
      = { s.store with
          holders := (s.store.holders.set tail.slot (s.store.holders[tail.slot] - 1)).set d.slot
            ((s.store.holders.set tail.slot (s.store.holders[tail.slot] - 1))[d.slot] + 1) } := by
  have hloss : ∀ u : State, ((u.countLoss p (1 + tail.lossesBefore)).raiseLoss p).store = u.store := fun u =>
    u.countLoss_store p _
  simp only [State.displace, State.appendRecord_store, hloss]
  rfl

theorem State.displace_holders (s : State) (p : Port) (tail : QueueRecord) (d : Delivery) :
    (s.displace p tail d).state.store.holders
      = (s.store.holders.set tail.slot (s.store.holders[tail.slot] - 1)).set d.slot
          ((s.store.holders.set tail.slot (s.store.holders[tail.slot] - 1))[d.slot] + 1) := by
  rw [State.displace_store]

/-- R142: a displacement by a record of a slot to which the queue does not refer. -/
theorem State.StoreSafe.displace (h : s.StoreSafe o) {d : Delivery} {front : List QueueRecord} {tail : QueueRecord}
    (hpin : (s.queue p).tailPinned = false) (hrecords : (s.queue p).records = front ++ [tail])
    (hfresh : s.refsAt d.slot p = 0) (ho : o ≠ some d.slot) : (s.displace p tail d).state.StoreSafe o := by
  have hslot := (s.refsAt_eq_zero_iff d.slot p).1 hfresh
  have hq := s.displace_queue p p tail d
  rw [if_pos rfl, hrecords, List.dropLast_concat] at hq
  have hbefore := State.refsAt_append hrecords
  have hafter : ∀ i, (s.displace p tail d).state.refsAt i p
      = front.countP (fun x => x.slot == i) + if i = d.slot then 1 else 0 :=
    fun i => State.refsAt_append (by rw [hq]) i
  have hne : d.slot ≠ tail.slot := fun e => hslot (by rw [hrecords, e]; simp)
  refine h.write (p := p) (fun q hqp => ?_) ?_ (fun i => ?_) (fun i hi => ?_) ?_
  · rw [State.displace_queue, State.displace_engine, if_neg hqp, if_neg hqp]
    exact ⟨rfl, rfl⟩
  · rw [hq]
    have hfront := ((h.queues p).dropTail hpin hrecords).countLoss (1 + tail.lossesBefore)
    refine hfront.append ?_ (fun hm => hslot ?_) (Nat.min_le_left _ _)
    · obtain ⟨-, -, hlen, -⟩ := h.queues p
      rw [hrecords] at hlen
      simp only [List.length_append, List.length_cons, List.length_nil] at hlen
      simp only [Queue.full, decide_eq_false_iff_not, Nat.not_le]
      omega
    · rw [hrecords, List.map_append]
      exact List.mem_append_left _ hm
  · have hheld : s.store.holders[tail.slot] = s.refsTo tail.slot := h.holders tail.slot
    have hone : 1 ≤ s.refsTo tail.slot := by
      have := s.refsAt_le_refsTo tail.slot p
      have := hbefore tail.slot
      rw [if_pos rfl] at this
      omega
    rw [State.displace_holders, getElem_set_slot, getElem_set_slot, getElem_set_slot, hbefore, hafter, if_neg hne]
    by_cases hd : i = d.slot
    · rw [if_pos hd, if_neg (fun e => hne (hd.symm.trans e)), if_pos hd, hd]
      omega
    · rw [if_neg hd, if_neg hd]
      by_cases ht : i = tail.slot
      · rw [if_pos ht, if_pos ht, ht]
        omega
      · rw [if_neg ht, if_neg ht]
  · have hd : i ≠ d.slot := by rintro rfl; exact ho hi
    have := s.refsAt_le_refsTo i p
    have := h.apart i hi
    have := hbefore i
    rw [hafter, if_neg hd]
    omega
  · rw [State.RxFollows, State.displace_engine, if_pos rfl, hq]
    simp

/-! ## Offers -/

theorem State.offer_room {d : Delivery} (h : (s.queue p).full = false) : s.offer p d = .start (s.appendRecord p d) := by
  simp [State.offer, h]

theorem State.offer_lost {d : Delivery} (h : (s.queue p).full = true)
    (hl : (s.queue p).policy = .dropNew ∨ (s.queue p).tailPinned = true) : s.offer p d = .start (s.countLoss p 1) := by
  rcases hl with hl | hl
  · simp [State.offer, h, hl]
  · cases hp : (s.queue p).policy <;> simp [State.offer, h, hl, hp]

theorem State.offer_displaces {d : Delivery} {front : List QueueRecord} {tail : QueueRecord} (h : (s.queue p).full = true)
    (hp : (s.queue p).policy = .displace) (hpin : (s.queue p).tailPinned = false)
    (hr : (s.queue p).records = front ++ [tail]) : s.offer p d = s.displace p tail d := by
  simp [State.offer, h, hp, hpin, hr]

/-- An append leaves the reception slot. -/
theorem State.offer_rxSlot (s : State) (p : Port) (d : Delivery) :
    (s.offer p d).state.store.rxSlot = s.store.rxSlot := by
  rcases s.offer_cases p d with e | ⟨tail, e⟩ | e
  · rw [e]; rfl
  · rw [e, State.displace_store]
  · rw [e, State.countLoss_store]

/-- R140: a queue that is full has a tail, since its capacity is at least 1. -/
theorem Queue.Sound.exists_tail {q : Queue} (h : q.Sound) (hf : q.full = true) :
    ∃ front tail, q.records = front ++ [tail] := by
  obtain ⟨h1, -⟩ := h
  simp only [Queue.full, decide_eq_true_eq] at hf
  rcases List.eq_nil_or_concat q.records with e | ⟨front, tail, e⟩
  · rw [e, List.length_nil] at hf
    omega
  · exact ⟨front, tail, by rw [e, List.concat_eq_append]⟩

/-- R141 to R143: an offer of a slot to which the queue does not refer. -/
theorem State.StoreSafe.offer (h : s.StoreSafe o) {d : Delivery} (hfresh : s.refsAt d.slot p = 0) (ho : o ≠ some d.slot) :
    (s.offer p d).state.StoreSafe o := by
  cases hf : (s.queue p).full with
  | false =>
    rw [State.offer_room hf]
    exact h.appendRecord hf hfresh ho
  | true =>
    by_cases hl : (s.queue p).policy = .dropNew ∨ (s.queue p).tailPinned = true
    · rw [State.offer_lost hf hl]
      exact h.countLoss p 1
    · obtain ⟨hp, hpin⟩ := not_or.1 hl
      have hp : (s.queue p).policy = .displace := by
        cases e : (s.queue p).policy
        · exact absurd e hp
        · rfl
      have hpin : (s.queue p).tailPinned = false := by simpa using hpin
      obtain ⟨front, tail, hr⟩ := (h.queues p).exists_tail hf
      rw [State.offer_displaces hf hp hpin hr]
      exact h.displace hpin hr hfresh ho

/-! ## Removals -/

/-- R147: the head leaves, where no transaction pin is held. -/
theorem State.StoreSafe.removeHead (h : s.StoreSafe o) (hpin : (s.queue p).txnPin = false) :
    (s.removeHead p).state.StoreSafe o := by
  cases hr : (s.queue p).records with
  | nil =>
    simp only [State.removeHead, hr]
    exact h
  | cons r rest =>
    obtain ⟨-, -, hqueue, hengine, hstore⟩ := s.removeHead_cons p r rest hr
    have hq := hqueue p
    rw [if_pos rfl] at hq
    have hbefore : ∀ i, s.refsAt i p = rest.countP (fun x => x.slot == i) + if i = r.slot then 1 else 0 := fun i => by
      simp only [State.refsAt, hr, List.countP_cons, beq_iff_eq, eq_comm (a := i)]
    have hafter : ∀ i, (s.removeHead p).state.refsAt i p = rest.countP (fun x => x.slot == i) := fun i => by
      simp only [State.refsAt, hq]
    refine h.write (p := p) (fun q hne => ?_) ?_ (fun i => ?_) (fun i hi => ?_) ?_
    · rw [hqueue, hengine, if_neg hne, if_neg hne]
      exact ⟨rfl, rfl⟩
    · rw [hq]
      exact (h.queues p).dropHead hpin hr
    · have hone : 1 ≤ s.refsTo r.slot := by
        have := s.refsAt_le_refsTo r.slot p
        have := hbefore r.slot
        rw [if_pos rfl] at this
        omega
      have hheld : s.store.holders[r.slot] = s.refsTo r.slot := h.holders r.slot
      rw [hstore, getElem_set_slot, hbefore, hafter]
      by_cases e : i = r.slot
      · rw [if_pos e, if_pos e, e]
        omega
      · rw [if_neg e, if_neg e]
        omega
    · have := s.refsAt_le_refsTo i p
      have := h.apart i hi
      have := hbefore i
      rw [hafter]
      omega
    · rw [State.RxFollows, hengine, if_pos rfl, hq]

/-- R154: each record that leaves takes one holder from its slot. -/
theorem State.foldl_unhold_holders (l : List QueueRecord) (s : State) (i : SlotNo) :
    (l.foldl (fun t r => t.unhold r.slot) s).store.holders[i]
      = s.store.holders[i] - l.countP (fun r => r.slot == i) := by
  induction l generalizing s with
  | nil => rfl
  | cons r l ih =>
    have hone : (s.unhold r.slot).store.holders[i] = s.store.holders[i] - if r.slot = i then 1 else 0 := by
      have e : (s.unhold r.slot).store.holders = s.store.holders.set r.slot (s.store.holders[r.slot] - 1) := rfl
      rw [e, getElem_set_slot]
      by_cases hi : i = r.slot
      · rw [if_pos hi, if_pos hi.symm, hi]
      · rw [if_neg hi, if_neg (Ne.symm hi), Nat.sub_zero]
    rw [List.foldl_cons, ih, hone, List.countP_cons]
    simp only [beq_iff_eq]
    omega

/-- R154, R164: what emptying a queue writes. -/
theorem State.emptyQueue_writes (s : State) (p : Port) :
    (∀ q, (s.emptyQueue p).state.queue q = if q = p then .initial else s.queue q)
      ∧ (∀ q, (s.emptyQueue p).state.engine q
          = if q = p then { s.engine p with flags := { (s.engine p).flags with rx := false } } else s.engine q)
      ∧ (∀ i : SlotNo, (s.emptyQueue p).state.store.holders[i] = s.store.holders[i] - s.refsAt i p)
      ∧ (s.emptyQueue p).state.store.rxSlot = s.store.rxSlot := by
  have hfold := State.OnlyChanges.foldl (fun t (r : QueueRecord) => t.unhold r.slot) [.store]
    (fun t r => t.onHolders_only r.slot _) (s.queue p).records s
  have hrx : ∀ (l : List QueueRecord) (u : State),
      (l.foldl (fun t r => t.unhold r.slot) u).store.rxSlot = u.store.rxSlot := by
    intro l
    induction l with
    | nil => exact fun _ => rfl
    | cons r l ih => exact fun u => ih (u.unhold r.slot)
  refine ⟨fun q => ?_, fun q => ?_, fun i => State.foldl_unhold_holders _ s i, hrx _ s⟩
  · have e : (s.emptyQueue p).state.queue q
        = (((s.queue p).records.foldl (fun t r => t.unhold r.slot) s).putQueue p .initial).queue q := rfl
    rw [e, State.putQueue_queue, hfold.queue (by decide)]
  · simp only [State.emptyQueue, State.followRx_engine, State.putQueue_queue, if_true, (State.putQueue_views _ _ _).1,
      hfold.engine (by decide)]
    rfl

/-! ## Slots -/

/-- R135: a free slot has no record and is not the reception slot. -/
theorem State.StoreSound.free_slot (h : s.StoreSound) (hi : s.slotFree i = true) :
    s.refsTo i = 0 ∧ s.store.rxSlot ≠ some i := by
  simp only [State.slotFree, Bool.and_eq_true, beq_iff_eq, bne_iff_ne] at hi
  exact ⟨by rw [← h.safe.holders i]; exact hi.1, hi.2⟩

theorem State.refsAt_of_refsTo (h : s.refsTo i = 0) (p : Port) : s.refsAt i p = 0 := by
  have := s.refsAt_le_refsTo i p
  omega

end Sys2Proof.Machine
end

section
/-! An append by room, policy and pin (R141 to R144), and PEEK and TAKE as far as they only read (R149, R150, R171). -/

namespace Sys2Proof.Machine

variable {s : State} {p : Port}

/-! ## Appends -/

/-- Settles O40, by the three outcomes of an offer. -/
theorem appendTakesCountsOrDisplaces : Obligations.AppendTakesCountsOrDisplaces := by
  intro s p d _
  refine ⟨fun hroom => ?_, fun hfull hl => ?_, fun front tail hfull hpol hpin hr hne => ?_,
    fun q hq => s.offer_other d hq, s.offer_only p d⟩
  · rw [State.offer_room hroom]
    refine ⟨rfl, ?_, ?_, ?_⟩
    · rw [Upd.start, State.appendRecord_queue, if_pos rfl]
    · rw [Upd.start, State.appendRecord_engine, if_pos rfl]
    · rw [Upd.start, State.appendRecord_store, getElem_set_slot, if_pos rfl]
  · rw [State.offer_lost hfull hl]
    refine ⟨rfl, ?_, ?_, s.countLoss_store p 1⟩
    · rw [Upd.start, State.countLoss_queue, if_pos rfl]
    · rw [Upd.start, State.countLoss_engine, if_pos rfl]
  · rw [State.offer_displaces hfull hpol hpin hr]
    refine ⟨rfl, ?_, ?_, ?_, ?_⟩
    · rw [State.displace_queue, if_pos rfl, hr, List.dropLast_concat]
    · rw [State.displace_engine, if_pos rfl]
    · rw [State.displace_holders, getElem_set_slot, if_neg (Ne.symm hne), getElem_set_slot, if_pos rfl]
    · rw [State.displace_holders, getElem_set_slot, if_pos rfl, getElem_set_slot, if_neg hne]

/-! ## The snapshot of the head -/

theorem State.snapHead_nil (h : (s.queue p).records = []) (cmd : ReadCommand) :
    s.snapHead p cmd = emptySnapshot cmd 0xFF := by
  simp only [State.snapHead, h]

theorem State.snapHead_cons {r : QueueRecord} {rest : List QueueRecord} (h : (s.queue p).records = r :: rest)
    (cmd : ReadCommand) : s.snapHead p cmd = validSnapshot cmd (headData s r) .none := by
  simp only [State.snapHead, h]

theorem State.snapshotOf_head {cmd : ReadCommand} (arg : Byte) (h : cmd = .peek ∨ cmd = .take) :
    s.snapshotOf p cmd arg = s.snapHead p cmd := by
  rcases h with rfl | rfl <;> rfl

/-- Settles O37: the snapshot is taken as the head record stands, and its first bytes go by the origin of that record. -/
theorem peekAndTakeReportTheHead : Obligations.PeekAndTakeReportTheHead := by
  intro s p cmd arg hin hcmd
  obtain ⟨t, ht, hts⟩ := execReadSnapshot_hasSnapshot s p cmd arg hin (s.snapshotOf_cmd p cmd arg)
  rw [State.snapshotOf_head arg hcmd] at hts
  refine ⟨t, s.snapHead p cmd, ht, hts, fun h => ?_, fun r rest h => ?_⟩
  · rw [State.snapHead_nil h]
    refine ⟨rfl, fun j => ?_⟩
    cases j <;> rfl
  · rw [State.snapHead_cons h]
    refine ⟨rfl, ?_⟩
    cases ho : r.origin with
    | lineAddressed m c => simp only [validSnapshot, headData, originData, ho, BitVec.ofNat_toNat]; rfl
    | lineGroup m g e => simp only [validSnapshot, headData, originData, ho, bytesOfGroup_eq, BitVec.ofNat_toNat]; rfl
    | echo q g e => simp only [validSnapshot, headData, originData, ho, bytesOfGroup_eq]; rfl
    | handOff q c => simp only [validSnapshot, headData, originData, ho]; rfl

/-! ## The pin of PEEK -/

/-- R149: a complete PEEK of a non-empty queue, and of its port nothing but the persistent pin. -/
theorem pinHead_putQueue (e : SideEffect) (h : (s.queue p).records ≠ []) :
    pinHead p e s = s.putQueue p { s.queue p with pin := true } := by
  rw [pinHead, if_neg (by simpa using h)]

/-- Settles O38, by the result of the snapshot at release. -/
theorem peekPinsTheHead : Obligations.PeekPinsTheHead := by
  intro s p j n hs hcmd
  have hexec : exec (.peek p j) s = .next (s.takeRead p n.cmd j (pinHead p)) := by rw [hcmd]; rfl
  rw [hexec]
  refine ⟨fun hv => ?_, fun hv hj => ?_, fun hv hj hr => ⟨_, rfl, ?_⟩⟩
  · exact ⟨_, rfl, State.takeRead_incomplete_answered _ hs (readResult_empty j hv) (by decide)⟩
  · exact ⟨_, rfl, State.takeRead_incomplete_answered _ hs (readResult_short hv hj) (by decide)⟩
  · have hclosed : ((s.closeTransaction p).queue p).records ≠ [] := by
      rw [State.closeTransaction_queue, if_pos rfl]
      exact hr
    rw [s.takeRead_some p n j _ hs, readResult_whole hv hj, if_pos rfl, pinHead_putQueue _ hclosed]
    refine ⟨by simp, by simp, fun q hq => by simp [hq], ?_⟩
    exact ((s.closeTransaction_only p).trans (((State.putQueue_only _ p _).mono (by decide)).seq
      (State.report_only _ p _) (by decide)))

end Sys2Proof.Machine
end

section
/-! O58, what leaves holder counts, reception slot, queues and RX, and what moves them only through the reception slot, a
hand-off or a move of the line state (R18, R30, R86, R136, R137). -/

namespace Sys2Proof.Machine

variable {s t u : State} {o : Option SlotNo} {l : List Part} {p : Port} {r : Ref}

/-! ## Steps that leave the frame store -/

/-- Holder counts, reception slot, queues and RX are as they were. -/
def State.SameStore (s t : State) : Prop :=
  t.store.holders = s.store.holders ∧ t.store.rxSlot = s.store.rxSlot ∧ (∀ p, t.queue p = s.queue p)
    ∧ ∀ p, (t.engine p).flags.rx = (s.engine p).flags.rx

theorem State.SameStore.refl (s : State) : s.SameStore s := ⟨rfl, rfl, fun _ => rfl, fun _ => rfl⟩

theorem State.SameStore.trans (h : s.SameStore t) (g : t.SameStore u) : s.SameStore u := by
  obtain ⟨hh, hx, hq, hrx⟩ := h
  obtain ⟨gh, gx, gq, grx⟩ := g
  exact ⟨gh.trans hh, gx.trans hx, fun p => (gq p).trans (hq p), fun p => (grx p).trans (hrx p)⟩

/-- A step that leaves frame store and queues, and RX of every port. -/
theorem State.SameStore.of_rx (h : s.OnlyChanges t l) (hs : Part.store ∉ l) (hq : Part.queues ∉ l)
    (hrx : ∀ p, (t.engine p).flags.rx = (s.engine p).flags.rx) : s.SameStore t := by
  have e : t.store = s.store := h.2 .store hs
  exact ⟨by rw [e], by rw [e], h.queue hq, hrx⟩

theorem State.SameStore.of_only (h : s.OnlyChanges t l) (hs : Part.store ∉ l) (hq : Part.queues ∉ l)
    (he : Part.engines ∉ l) : s.SameStore t := .of_rx h hs hq fun p => by rw [h.engine he]

theorem State.SameStore.seq (h : s.SameStore t) (g : t.OnlyChanges u l) (hs : Part.store ∉ l) (hq : Part.queues ∉ l)
    (he : Part.engines ∉ l) : s.SameStore u := h.trans (.of_only g hs hq he)

theorem State.StoreSafe.same (h : s.StoreSafe o) (hs : s.SameStore t) : t.StoreSafe o := by
  obtain ⟨hh, -, hq, hrx⟩ := hs
  exact h.congr hh hq hrx

theorem State.StoreSound.same (h : s.StoreSound) (hs : s.SameStore t) : t.StoreSound := by
  have ht := h.safe.same hs
  obtain ⟨-, hx, -⟩ := hs
  rw [← hx] at ht
  exact t.storeSafe_iff.1 ht

theorem State.StoreSound.frame (h : s.StoreSound) (hf : s.OnlyChanges t l) (hs : Part.store ∉ l) (hq : Part.queues ∉ l)
    (he : Part.engines ∉ l) : t.StoreSound := h.same (.of_only hf hs hq he)

/-- The engine of a port is written, and its RX stays. -/
theorem State.putEngine_sameStore {e : Engine} (h : e.flags.rx = (s.engine p).flags.rx) : s.SameStore (s.putEngine p e) :=
  .of_rx (s.putEngine_only p e) (by decide) (by decide) fun q => by
    rw [State.putEngine_engine]
    split
    next hq => rw [hq, h]
    next => rfl

theorem State.raiseLine_sameStore (s : State) : s.SameStore s.raiseLine :=
  .of_rx s.raiseLine_only (by decide) (by decide) fun q => by rw [State.raiseLine_engine]

theorem State.announceLine_sameStore (b s : State) : s.SameStore (State.announceLine b s) := by
  unfold State.announceLine
  split
  · exact .refl s
  · exact s.raiseLine_sameStore

theorem State.confine_sameStore (s : State) (f : Confinement) : s.SameStore (s.confine f) :=
  .of_rx (s.confine_only f) (by decide) (by decide) fun q => by rw [State.confine_flags]

theorem State.complete_sameStore (s : State) (r : Ref) (x : MailOutcome) (c : Option ExpiryCause) :
    s.SameStore (s.complete r x c) :=
  .of_rx (s.complete_only r x c) (by decide) (by decide) fun q => by
    rw [State.complete_engine]
    split <;> rfl

theorem State.report_sameStore (s : State) (p : Port) (x : Result) : s.SameStore (s.report p x) := s.putEngine_sameStore rfl

theorem State.withdrawAll_sameStore (s : State) : s.SameStore s.withdrawAll.state :=
  Upd.each_inv s.SameStore _ State.withdrawOne
    (fun r _ t ht => by
      unfold State.withdrawOne
      split
      · exact ht.trans (t.complete_sameStore r _ _)
      · exact ht) (Upd.start s) (.refl s)

/-- R59, R60, R64, R73: settling writes of the engines TXDONE alone. -/
theorem State.settle_sameStore (s : State) (r : Ref) (raw : RawResult) : s.SameStore (s.settle r raw).state := by
  have hattempt : s.SameStore (s.settleAttempt r raw).state := by
    cases raw with
    | accept | refuse | sentClean => exact s.complete_sameStore r _ _
    | defer | noReply | badReply | collision =>
      simp only [State.settleAttempt]
      split
      · exact s.complete_sameStore r _ _
      · exact .of_only (s.putMailbox_only r _) (by decide) (by decide) (by decide)
  unfold State.settle
  split
  · split
    · rw [State.settleAborted_eq]
      exact (State.SameStore.of_only (s.putMailbox_only r _) (by decide) (by decide) (by decide)).trans
        (State.complete_sameStore _ r _ _)
    · exact hattempt
  · exact .of_only (s.vacate_only r) (by decide) (by decide) (by decide)
  all_goals exact .refl s

/-- R12, R20, R44: counting and sync write payload bytes, and of the engines LINE alone. -/
theorem State.receptionCounted_sameStore (s : State) (v : Classified) : s.SameStore (s.receptionCounted v) := by
  refine ⟨s.receptionCounted_holders v, ?_, (s.receptionCounted_only v).queue (by decide), fun q => ?_⟩
  · have hcount : (s.countReception v.cls).store = s.store := (s.countReception_only v.cls).2 .store (by decide)
    have hkeep : ∀ u : State, (u.keepPayload v.payload).store.rxSlot = u.store.rxSlot := fun u => by
      unfold State.keepPayload
      split <;> rfl
    have hsync : (s.receptionCounted v).store = ((s.countReception v.cls).keepPayload v.payload).store :=
      (State.syncByFrame_only _ v).2 .store (by decide)
    rw [hsync, hkeep, hcount]
  · rw [State.receptionCounted_engine]
    split <;> rfl

/-! ## The reception slot -/

/-- R137: without a reception slot, no slot has to be apart from the records. -/
theorem State.StoreSafe.endReceptionSlot (h : s.StoreSafe o) : s.endReceptionSlot.state.StoreSound := by
  obtain ⟨-, hstore⟩ := s.endReceptionSlot_eq
  have hf := s.endReceptionSlot_only
  have ht : s.endReceptionSlot.state.StoreSafe none :=
    h.weaken.congr (by rw [hstore]) (hf.queue (by decide)) fun p => by rw [hf.engine (by decide)]
  refine (State.storeSafe_iff _).1 ?_
  rwa [hstore]

/-- R135: a free slot to which no record refers becomes the reception slot. -/
theorem State.StoreSound.takeReceptionSlot (h : s.StoreSound) : s.takeReceptionSlot.StoreSound := by
  obtain ⟨-, hstore⟩ := s.takeReceptionSlot_eq
  have hf := s.takeReceptionSlot_only
  have ht : s.takeReceptionSlot.StoreSafe none :=
    h.safe.weaken.congr (by rw [hstore]) (hf.queue (by decide)) fun p => by rw [hf.engine (by decide)]
  refine (State.storeSafe_iff _).1 ⟨ht.holders, fun i hi => ?_, ht.queues, ht.rx⟩
  rw [← ht.holders i, hstore]
  rw [hstore] at hi
  cases hl : s.lowestFree with
  | none =>
    rw [hl] at hi
    exact (h.safe.holders i).trans (h.safe.apart i hi)
  | some j =>
    obtain ⟨hfree, -⟩ := (s.lowestFree_some j).1 hl
    obtain ⟨hrefs, -⟩ := h.free_slot hfree
    rw [hl] at hi
    obtain rfl : j = i := Option.some.inj hi
    exact (h.safe.holders j).trans hrefs

theorem State.StoreSound.frameStart (h : s.StoreSound) (chars : List RxChar) : (s.frameStart chars).StoreSound := by
  unfold State.frameStart
  simp only []
  split
  · exact h.takeReceptionSlot.frame (State.putLine_only _ _) (by decide) (by decide) (by decide)
  · exact (h.frame (s.putLine_only _) (by decide) (by decide) (by decide)).frame (State.putLine_only _ _) (by decide)
      (by decide) (by decide)

theorem State.writeSlot_sameStore (s : State) (i : SlotNo) (b : List Byte) : s.SameStore (s.writeSlot i b) :=
  ⟨rfl, rfl, fun _ => rfl, fun _ => rfl⟩

/-! ## Local passes -/

/-- R86: a hand-off takes a free slot, in a queue with room. -/
theorem State.StoreSound.handOff (h : s.StoreSound) (r : Ref) (rec : MailRecord) {i : SlotNo}
    (hroom : (s.queue p).full = false) (hi : s.slotFree i = true) : (s.handOff r rec p i).StoreSound := by
  obtain ⟨hrefs, hne⟩ := h.free_slot hi
  have hw := h.safe.same (s.writeSlot_sameStore i rec.payload)
  have hat : (s.localDelivered r rec p i).StoreSafe s.store.rxSlot := by
    refine hw.appendRecord (d := { origin := .handOff r.port rec.channel, arrival := s.line.round,
                                   length := rec.payload.length, slot := i }) hroom ?_ hne
    exact State.refsAt_of_refsTo hrefs p
  rw [State.handOff_eq]
  exact State.StoreSound.same ((State.storeSafe_iff _).1 hat) (State.complete_sameStore _ r _ _)

theorem State.StoreSound.decideLocal (h : s.StoreSound) (r : Ref) (rec : MailRecord) : (s.decideLocal r rec).StoreSound := by
  have hwaits : (s.waitForSpace r).StoreSound := h.frame (s.putMailbox_only r _) (by decide) (by decide) (by decide)
  unfold State.decideLocal
  split
  · split
    · exact hwaits
    next hroom =>
      split
      · exact hwaits
      next i hi => exact h.handOff r rec (by simpa using hroom) ((s.lowestFree_some i).1 hi).1
  · exact h.same (s.complete_sameStore r _ _)

theorem State.StoreSound.passAt (h : s.StoreSound) (retry : Bool) (r : Ref) : (State.passAt retry s r).StoreSound := by
  rcases s.passAt_decides retry r with ⟨e, -⟩ | ⟨-, -, rec, e⟩
  · rw [e]; exact h
  · rw [e]; exact h.decideLocal r rec

theorem State.StoreSound.localPass (h : s.StoreSound) (retry : Bool) : (s.localPass retry).StoreSound :=
  State.localPass_keeps (P := State.StoreSound) retry (fun _ r ht => ht.passAt retry r) h

theorem Upd.finish_storeSound {u : Upd} (h : u.state.StoreSound) : u.finish.StoreSound :=
  Upd.finish_keeps (P := State.StoreSound) (fun retry _ r ht => ht.passAt retry r) h

/-! ## Turns, slips, frame start -/

theorem State.StoreSound.roundBoundary (h : s.StoreSound) : s.roundBoundary.StoreSound := by
  obtain ⟨u, hu, e⟩ := s.roundBoundary_cases
  obtain ⟨f, hf⟩ := u.confinementRoundBoundary_eq_confine
  have hbank : s.bankRoundBoundary.StoreSound := h.frame s.bankRoundBoundary_only (by decide) (by decide) (by decide)
  have hpass : u.StoreSound := by
    rcases hu with rfl | rfl
    · exact hbank
    · exact hbank.localPass false
  rw [e, hf]
  exact hpass.same (u.confine_sameStore f)

theorem State.StoreSound.advanceTurn (h : s.StoreSound) : s.advanceTurn.StoreSound :=
  h.frame s.advanceTurn_only (by decide) (by decide) (by decide)

theorem State.StoreSound.ownTurnBegins (h : s.StoreSound) : s.ownTurnBegins.StoreSound :=
  h.frame s.ownTurnBegins_only (by decide) (by decide) (by decide)

theorem State.StoreSound.beginTurnIdle (h : s.StoreSound) : s.beginTurnIdle.StoreSound := by
  have hturn := h.advanceTurn
  have hdrawn : s.advanceTurn.drawn.StoreSound := hturn.frame (State.drawn_only _) (by decide) (by decide) (by decide)
  unfold State.beginTurnIdle
  simp only []
  split
  · split
    · exact hdrawn.roundBoundary.ownTurnBegins
    · exact hdrawn.ownTurnBegins.roundBoundary
  · split
    · exact hturn.roundBoundary
    · split
      · exact hturn.ownTurnBegins
      · exact hturn

theorem State.StoreSound.turnAtActivity (h : s.StoreSound) : s.turnAtActivity.StoreSound := by
  unfold State.turnAtActivity State.beginTurnBusy
  split
  · exact h.frame s.startFirstTurn_only (by decide) (by decide) (by decide)
  · split
    · split
      · exact h.advanceTurn.roundBoundary
      · exact h.advanceTurn
    · exact h

theorem State.StoreSound.putLine (h : s.StoreSound) (l : LineUnit) : (s.putLine l).StoreSound :=
  h.frame (s.putLine_only l) (by decide) (by decide) (by decide)

theorem State.StoreSound.slip (h : s.StoreSound) (a : NodeAddr) : (s.slip a).StoreSound := by
  have hseen : s.slipSeen.StoreSound := h.frame s.slipSeen_only (by decide) (by decide) (by decide)
  rcases s.slip_cases a with ⟨-, -, e⟩ | ⟨-, e⟩
  · rw [e]
    exact (State.StoreSound.roundBoundary (hseen.putLine _)).putLine _
  · rw [e]
    exact hseen.putLine _

theorem State.StoreSound.headerZero (h : s.StoreSound) (pre h0 : RxChar) : (s.headerZero pre h0).StoreSound := by
  unfold State.headerZero
  simp only []
  split
  · exact h.putLine _
  · split
    · exact (h.slip _).putLine _
    · split
      · exact (h.slip _).frameStart _
      · exact h.frameStart _

theorem State.StoreSound.receiveAfterCollision (h : s.StoreSound) (f : OwnFrame) (k : Nat) (c : RxChar) :
    (s.receiveAfterCollision f k c).StoreSound := by
  have hon : (s.receivedOn (collisionChars f k c)).StoreSound := h.putLine _
  rcases s.receiveAfterCollision_cases f k c with ⟨-, e⟩ | ⟨pre, h0, -, e⟩ | ⟨-, -, e⟩
  · rw [e]; exact hon
  · rw [e]; exact hon.headerZero pre h0
  · rw [e]; exact (hon.slip _).putLine _

/-! ## Moves of the line state -/

theorem State.StoreSound.enterOffline (h : s.StoreSound) : s.enterOffline.state.StoreSound := by
  have hline : s.lineOffline.state.StoreSound := State.StoreSound.putLine h.safe.endReceptionSlot _
  have hall := hline.same (State.withdrawAll_sameStore _)
  exact hall.frame (State.putFault_only _ _) (by decide) (by decide) (by decide)

theorem State.StoreSound.abandonReception (h : s.StoreSound) : s.abandonReception.state.StoreSound := by
  unfold State.abandonReception
  split
  · split
    · exact State.StoreSound.putLine h.safe.endReceptionSlot _
    · exact h
  · exact h

theorem State.StoreSound.moveLineState (h : s.StoreSound) (l : LineState) : (s.moveLineState l).state.StoreSound := by
  have hput : ∀ l, (s.putLineState l).StoreSound := fun l =>
    h.frame (s.putLineState_only l) (by decide) (by decide) (by decide)
  unfold State.moveLineState
  split
  · exact h
  · cases l with
    | offline => exact (hput _).enterOffline
    | syncing => exact (hput _).putLine _
    | leaving => exact (hput _).abandonReception
    | active => exact hput _

theorem State.StoreSound.applyVotes (h : s.StoreSound) (v : Vector Vote 3) : (s.applyVotes v).state.StoreSound := by
  have hvotes : (s.putVotes v).StoreSound := h.frame (s.putVotes_only v) (by decide) (by decide) (by decide)
  exact (hvotes.moveLineState _).same (State.announceLine_sameStore s _)

theorem State.StoreSound.leaveAtEnd (h : s.StoreSound) : s.leaveAtEnd.state.StoreSound := by
  unfold State.leaveAtEnd
  split
  · exact (h.moveLineState _).same (State.announceLine_sameStore s _)
  · exact h

theorem State.StoreSound.syncByIdle (h : s.StoreSound) : s.syncByIdle.StoreSound := by
  have hput : ((s.putLine { s.line with
      turn := 31, syncIdle := 1000, busyUntilIdle := false, firstTurnDue := true }).putLineState .active).StoreSound :=
    (h.putLine _).frame (State.putLineState_only _ .active) (by decide) (by decide) (by decide)
  exact (hput.same (State.announceLine_sameStore _ _)).frame (State.spoil_only _) (by decide) (by decide) (by decide)

end Sys2Proof.Machine
end

section
/-! O58, deliveries, echoes, transmission ends and resets (R115, R117, R128 to R132, R137, R164, R167). -/

namespace Sys2Proof.Machine

variable {s t u : State} {o : Option SlotNo} {p : Port} {i : SlotNo}

/-! ## A slot offered at several ports -/

/-- R129, R132: one slot is offered at each of several ports, none of which refers to it. -/
theorem State.StoreSafe.each_port {f : Port → State → Upd} (halone : ActsAlone f)
    (hf : ∀ p t, t.StoreSafe o → t.refsAt i p = 0 → (f p t).state.StoreSafe o) {l : List Port} (hl : l.Nodup) {u : Upd}
    (h : u.state.StoreSafe o) (hfresh : ∀ p ∈ l, u.state.refsAt i p = 0) : (u.each l f).state.StoreSafe o := by
  induction l generalizing u with
  | nil => exact h
  | cons p l ih =>
    obtain ⟨hp, hl⟩ := List.nodup_cons.1 hl
    rw [Upd.each_cons]
    refine ih hl ?_ fun q hq => ?_
    · rw [Upd.andThen_parts _ _ |>.1]
      exact hf p _ h (hfresh p List.mem_cons_self)
    · have hqp : q ≠ p := by rintro rfl; exact hp hq
      have hkept := State.refsAt_congr (congrArg Queue.records (halone p q u.state hqp).queue) i
      rw [Upd.andThen_parts _ _ |>.1]
      exact hkept.trans (hfresh q (List.mem_cons_of_mem _ hq))

theorem State.StoreSafe.deliverGroupAt (h : s.StoreSafe o) (n : NodeAddr) (g : GroupId) (k : Nat)
    (hfresh : s.refsAt i p = 0) (ho : o ≠ some i) : (State.deliverGroupAt n g k i p s).state.StoreSafe o := by
  unfold State.deliverGroupAt
  split
  next e _ =>
    exact h.offer (d := { origin := .lineGroup n g e, arrival := s.line.round, length := k, slot := i }) hfresh ho
  · exact h

theorem State.StoreSafe.loseGroupAt (h : s.StoreSafe o) (g : GroupId) (p : Port) :
    (State.loseGroupAt g p s).state.StoreSafe o := by
  unfold State.loseGroupAt
  split
  · exact h.countLoss p 1
  · exact h

theorem State.StoreSafe.echoAt (h : s.StoreSafe o) (q : Port) (g : GroupId) (k : Nat) (hfresh : s.refsAt i p = 0)
    (ho : o ≠ some i) : (State.echoAt q g k i p s).state.StoreSafe o := by
  unfold State.echoAt
  split
  next e _ =>
    exact h.offer (d := { origin := .echo q g e, arrival := s.line.round, length := k, slot := i }) hfresh ho
  · exact h

/-! ## Deliveries -/

/-- R17, R135: the slot that the frame holds is the reception slot, to which no record refers. -/
theorem State.StoreSound.heldSlot_fresh (h : s.StoreSound) (hi : s.heldSlot = some i) (p : Port) : s.refsAt i p = 0 :=
  State.refsAt_of_refsTo (h.safe.apart i (State.heldSlot_rxSlot hi)) p

/-- R129, R130: the slot of the frame is offered at the ports that match, or each of them counts a loss. -/
theorem State.StoreSound.deliverGroup (h : s.StoreSound) (n : NodeAddr) (g : GroupId) (k : Nat) :
    (s.deliverGroup n g k).state.StoreSafe none := by
  unfold State.deliverGroup
  split
  next i hi =>
    exact State.StoreSafe.each_port (State.deliverGroupAt_actsAlone n g k i)
      (fun p t ht hfresh => ht.deliverGroupAt n g k hfresh (by simp)) allPorts_nodup (u := .start s) h.safe.weaken
      fun p _ => h.heldSlot_fresh hi p
  next =>
    exact Upd.each_inv (fun t => t.StoreSafe none) _ _ (fun p _ t ht => ht.loseGroupAt g p) (.start s) h.safe.weaken

/-- R116, R117: a reply decision delivers the slot of the frame to a queue with room, at the most. -/
theorem State.StoreSound.replyDecision (h : s.StoreSound) (n : NodeAddr) (c : ChannelNo) (bit fresh : Bool) (k : Nat) :
    (s.replyDecision n c bit fresh k).1.StoreSafe none := by
  have hsame : s.SameStore (s.sequenceCheck n c bit fresh).1 :=
    .of_only (s.sequenceCheck_only n c bit fresh) (by decide) (by decide) (by decide)
  have hchecked := h.safe.weaken.same hsame
  obtain ⟨-, -, hqueue, -⟩ := hsame
  unfold State.replyDecision
  split
  · exact h.safe.weaken
  · split
    · exact h.safe.weaken
    next p _ =>
      simp only []
      split
      · exact hchecked
      · split
        · exact hchecked
        next i hi =>
          split
          · exact hchecked
          next hroom =>
            have hat := hchecked.appendRecord (p := p)
              (d := { origin := .lineAddressed n c, arrival := s.line.round, length := k, slot := i })
              (by rw [hqueue]; simpa using hroom) (h.heldSlot_fresh hi p) (by simp)
            exact hat.same (.of_only (State.toggleExpected_only _ n c) (by decide) (by decide) (by decide))

theorem State.StoreSound.decideReception (h : s.StoreSound) (v : Classified) :
    (s.decideReception v).state.StoreSafe none := by
  unfold State.decideReception
  split
  · split
    · exact (h.replyDecision _ _ _ _ _).same (.of_only (State.putReply_only _ _) (by decide) (by decide) (by decide))
    · exact h.safe.weaken
  · exact h.deliverGroup _ _ _

/-- R18, R137: at a reception end a record may come to refer to the reception slot, which is given up. -/
theorem State.StoreSound.receptionEnd (h : s.StoreSound) (rx : Reception) (v : Classified) :
    (s.receptionEnd rx v).StoreSound := by
  have hcounted := h.same (s.receptionCounted_sameStore v)
  have hdecided : (s.receptionDecided rx v).state.StoreSafe none := by
    unfold State.receptionDecided
    split
    · exact hcounted.decideReception v
    · exact hcounted.safe.weaken
  have hover : (s.receptionOver rx v).StoreSound :=
    hdecided.endReceptionSlot.frame (State.afterReceptionEnd_only _ v rx) (by decide) (by decide) (by decide)
  rw [State.receptionEnd_eq]
  exact Upd.finish_storeSound hover

/-! ## Echoes and transmission ends -/

/-- An echo leaves the reception slot. -/
theorem State.echo_rxSlot (s : State) (q : Port) (g : GroupId) (b : List Byte) :
    (s.echo q g b).state.store.rxSlot = s.store.rxSlot := by
  rcases s.echo_cases q g b with e | ⟨i, -, e⟩ | e
  · rw [e]
  · rw [e]
    refine Upd.each_inv (fun t => t.store.rxSlot = s.store.rxSlot) _ _ (fun p _ t ht => ?_) (.start (s.writeSlot i b)) rfl
    unfold State.echoAt
    split
    · rw [State.offer_rxSlot, ht]
    · exact ht
  · rw [e]
    refine Upd.each_inv (fun t => t.store.rxSlot = s.store.rxSlot) _ _ (fun p _ t ht => ?_) (.start s) rfl
    unfold State.loseGroupAt
    split
    · rw [Upd.start_state _ |>.1, State.countLoss_store, ht]
    · exact ht

/-- R132: an echo offers a free slot to the other ports, or each of them that matches counts a loss. -/
theorem State.StoreSound.echo (h : s.StoreSound) (q : Port) (g : GroupId) (b : List Byte) :
    (s.echo q g b).state.StoreSound := by
  have hsafe : (s.echo q g b).state.StoreSafe s.store.rxSlot := by
    rcases s.echo_cases q g b with e | ⟨i, hi, e⟩ | e
    · rw [e]
      exact h.safe
    · obtain ⟨hrefs, hne⟩ := h.free_slot hi.1
      rw [e]
      exact State.StoreSafe.each_port (State.echoAt_actsAlone q g b.length i)
        (fun p t ht hfresh => ht.echoAt q g b.length hfresh hne) (otherPorts_nodup q)
        (h.safe.same (s.writeSlot_sameStore i b)) fun p _ => State.refsAt_of_refsTo hrefs p
    · rw [e]
      exact Upd.each_inv (fun t => t.StoreSafe s.store.rxSlot) _ _ (fun p _ t ht => ht.loseGroupAt g p) (.start s) h.safe
  refine (State.storeSafe_iff _).1 ?_
  rwa [s.echo_rxSlot q g b]

theorem Upd.echo_storeSound {u : Upd} (h : u.state.StoreSound) (f : OwnFrame) : (u.echo f).state.StoreSound := by
  rcases u.echo_cases f with e | ⟨g, v, -, hv, e⟩
  · rw [e]
    exact h
  · have hready : v.StoreSound := by
      rcases hv with rfl | rfl
      · exact h.frame (State.drawn_only _) (by decide) (by decide) (by decide)
      · exact (h.localPass u.space).frame (State.drawn_only _) (by decide) (by decide) (by decide)
    rw [e]
    exact hready.echo _ _ _

theorem State.StoreSound.transmissionEnd (h : s.StoreSound) (f : OwnFrame) (raw : RawResult) :
    (s.transmissionEnd f raw).StoreSound := by
  have hsettled : (s.endSettled f raw).state.StoreSound := by
    have hbank : (s.frameOver.settle f.ref raw).state.StoreSound :=
      State.StoreSound.same (h.putLine _) (State.settle_sameStore _ f.ref raw)
    have hhealth := hbank.same ((s.frameOver.settle f.ref raw).state.appendHealth_eq raw ▸ State.confine_sameStore _ _)
    exact hhealth.frame (State.settleOutbound_only _ f raw) (by decide) (by decide) (by decide)
  have hechoed : (s.endEchoed f raw).state.StoreSound := by
    unfold State.endEchoed
    split
    · exact Upd.echo_storeSound hsettled f
    · exact hsettled
  rw [State.transmissionEnd_eq]
  exact Upd.finish_storeSound hechoed.leaveAtEnd

/-! ## Resets -/

/-- R154, R164: before its vote is withdrawn, a port reset empties the queue of its port, and RX with it. -/
theorem State.StoreSound.portCleared (h : s.StoreSound) (p : Port) : (s.portCleared p).state.StoreSound := by
  have hboxes := (s.putEngine p (s.engine p).portReset).resetMailboxes_only p
  generalize hu : (((s.putEngine p (s.engine p).portReset).resetMailboxes p).state.closeChannels p).freeEntries p = u
  have hfreed : (s.putEngine p (s.engine p).portReset).OnlyChanges u
      [.boxes, .refs, .completions, .channels, .seq, .entries] := by
    rw [← hu]
    exact ((hboxes.mono (by decide)).seq (State.closeChannels_only _ p) (by decide)).seq (State.freeEntries_only _ p)
      (by decide)
  have hstore : u.store = s.store := hfreed.2 .store (by decide)
  have hqueue : ∀ q, u.queue q = s.queue q := hfreed.queue (by decide)
  have hengine : ∀ q, q ≠ p → u.engine q = s.engine q := fun q hq =>
    (hfreed.engine (by decide) q).trans (by rw [State.putEngine_engine, if_neg hq])
  obtain ⟨hq, he, hh, hx⟩ := u.emptyQueue_writes p
  have hnone : ∀ i, (u.emptyQueue p).state.refsAt i p = 0 := fun i => by
    rw [State.refsAt_eq_zero_iff, hq, if_pos rfl]
    exact List.not_mem_nil
  have hempty : (u.emptyQueue p).state.StoreSafe s.store.rxSlot := by
    refine h.safe.write (p := p) (fun q hne => ?_) ?_ (fun i => ?_) (fun i _ => hnone i) ?_
    · rw [hq, he, if_neg hne, if_neg hne, hqueue, hengine q hne]
      exact ⟨rfl, rfl⟩
    · rw [hq, if_pos rfl]
      exact Queue.initial_sound
    · have hle := s.refsAt_le_refsTo i p
      have hheld : s.store.holders[i] = s.refsTo i := h.safe.holders i
      rw [hh, hnone, hstore, State.refsAt_congr (congrArg Queue.records (hqueue p)) i]
      omega
    · rw [State.RxFollows, hq, he, if_pos rfl, if_pos rfl]
      rfl
  have hsound : (u.emptyQueue p).state.StoreSound := by
    refine (State.storeSafe_iff _).1 ?_
    rwa [hx, hstore]
  unfold State.portCleared
  simp only [Upd.on_parts, Upd.andThen_parts, hu]
  exact hsound.frame (State.putOrder_only _ p .key) (by decide) (by decide) (by decide)

theorem State.StoreSound.portReset (h : s.StoreSound) (p : Port) : (s.portReset p).StoreSound := by
  rw [State.portReset_eq, (Upd.andThen_parts _ _).1]
  exact ((h.portCleared p).applyVotes _).localPass true

theorem State.deviceReset_storeSound (s : State) : s.deviceReset.StoreSound := by
  refine State.StoreSound.same State.reset_storeSound ⟨rfl, rfl, fun _ => rfl, fun p => ?_⟩
  have he : s.deviceReset.engine p = (s.engine p).portReset := Vector.getElem_map ..
  rw [he, State.reset_engine]
  rfl

end Sys2Proof.Machine
end

section
/-! O58, row by row, and the step: holder counts, reception slot, queues and RX agree after every step. -/

namespace Sys2Proof.Machine

variable {s t u : State} {l : List Part} {p : Port}

/-! ## Ports -/

/-- A queue is written soundly, and its records stay. -/
theorem State.StoreSound.putQueue (h : s.StoreSound) {v : Queue} (hv : v.Sound) (hr : v.records = (s.queue p).records) :
    (s.putQueue p v).StoreSound := by
  have hq : (s.putQueue p v).queue p = v := by rw [State.putQueue_queue, if_pos rfl]
  refine (State.storeSafe_iff _).1 (h.safe.write_settings (p := p) (fun q hne => ?_) ?_ ?_ rfl fun _ => rfl)
  · rw [State.putQueue_queue, if_neg hne]
  · rw [hq]; exact hv
  · rw [hq]; exact hr

/-- R146: the transaction pin is held where there is a head. -/
theorem State.StoreSound.setTxnPin (h : s.StoreSound) {b : Bool} (hb : b = true → (s.queue p).records ≠ []) :
    (s.setTxnPin p b).StoreSound := by
  refine h.putQueue (Queue.Sound.setPins (h.safe.queues p) (a := (s.queue p).pin) fun hpin => ?_) rfl
  rcases Bool.or_eq_true_iff.1 hpin with hp | hb'
  · exact .inl (by simp [Queue.headPinned, hp])
  · exact .inr (hb hb')

theorem State.StoreSound.closeTransaction (h : s.StoreSound) (p : Port) : (s.closeTransaction p).StoreSound := by
  have hengine : (s.putEngine p { s.engine p with csLow := false, txn := none }).StoreSound :=
    h.same (State.putEngine_sameStore rfl)
  exact hengine.setTxnPin (b := false) fun hb => absurd hb Bool.false_ne_true

theorem State.StoreSound.setCs (h : s.StoreSound) (p : Port) (low : Bool) : (s.setCs p low).StoreSound :=
  h.same (State.putEngine_sameStore rfl)

theorem State.StoreSound.beginTransaction (h : s.StoreSound) (p : Port) : (s.beginTransaction p).StoreSound := by
  unfold State.beginTransaction
  simp only []
  split
  · exact h
  · split
    · exact h.setCs p true
    · exact h.same (State.putEngine_sameStore rfl)

/-- R146: a snapshot that holds the transaction pin has found a head. -/
theorem State.pinsAtSnapshot_records {cmd : ReadCommand} (h : s.pinsAtSnapshot p cmd = true) :
    (s.queue p).records ≠ [] := by
  intro hr
  cases cmd <;> simp [State.pinsAtSnapshot, hr] at h

/-- R146, R157: a snapshot holds the transaction pin where it finds a head. -/
theorem State.StoreSound.takeSnapshot (h : s.StoreSound) (p : Port) (x : Transaction) (cmd : ReadCommand) (arg : Byte) :
    (s.takeSnapshot p x cmd arg).StoreSound := by
  have hengine : (s.putEngine p { s.engine p with
      txn := some { x with received := [cmd.code, arg], snapshot := some (s.snapshotOf p cmd arg) } }).StoreSound :=
    h.same (State.putEngine_sameStore rfl)
  unfold State.takeSnapshot
  simp only []
  split
  next hpin => exact hengine.setTxnPin (b := true) fun _ => State.pinsAtSnapshot_records hpin
  · exact hengine

theorem execReadSnapshot_storeSound (p : Port) (cmd : ReadCommand) (arg : Byte) (h : s.StoreSound) :
    AnswerAll State.StoreSound (execReadSnapshot p cmd arg s) := by
  unfold execReadSnapshot
  split
  · split
    · exact answerAll_next (h.takeSnapshot p _ cmd arg)
    · exact answerAll_next h
  · exact answerAll_next h

/-! ## Releases -/

/-- R146, R155: a release first ends the transaction, and its pin with it. -/
theorem State.StoreSound.atRelease (h : s.StoreSound) (p : Port) (fits : Transaction → Bool)
    (act : Option Snapshot → State → State)
    (ha : ∀ n (u : State), u.StoreSound → (u.queue p).txnPin = false → (act n u).StoreSound) :
    (s.atRelease p fits act).StoreSound := by
  unfold State.atRelease
  split
  · exact h.setCs p false
  · split
    · refine ha _ _ (h.closeTransaction p) ?_
      rw [State.closeTransaction_queue, if_pos rfl]
    · exact h

theorem State.StoreSound.takeCode (h : s.StoreSound) (p : Port) (code : Byte) (body : State → State × Result)
    (hb : ∀ u : State, u.StoreSound → (u.queue p).txnPin = false → (body u).1.StoreSound) :
    (s.takeCode p code body).StoreSound :=
  h.atRelease p _ _ fun _ u hu hp => (hb u hu hp).same (State.report_sameStore _ p _)

theorem takeCommand_storeSound (p : Port) (c : Command) (body : State → State × Result)
    (hb : ∀ u : State, u.StoreSound → (u.queue p).txnPin = false → (body u).1.StoreSound) (h : s.StoreSound) :
    AnswerAll State.StoreSound (.next (s.takeCommand p c body)) :=
  answerAll_next (h.takeCode p c.code body hb)

/-- The release of a command whose body leaves frame store, queues and engines. -/
theorem takeCommand_frame_storeSound (p : Port) (c : Command) (body : State → State × Result)
    (hb : ∀ u : State, u.OnlyChanges (body u).1 l) (hs : Part.store ∉ l) (hq : Part.queues ∉ l) (he : Part.engines ∉ l)
    (h : s.StoreSound) : AnswerAll State.StoreSound (.next (s.takeCommand p c body)) :=
  takeCommand_storeSound p c body (fun u hu _ => hu.frame (hb u) hs hq he) h

theorem takeRead_storeSound (p : Port) (cmd : ReadCommand) (k : Nat) (effect : SideEffect → State → State)
    (he : ∀ e (u : State), u.StoreSound → (u.queue p).txnPin = false → (effect e u).StoreSound) (h : s.StoreSound) :
    AnswerAll State.StoreSound (.next (s.takeRead p cmd k effect)) := by
  refine answerAll_next (h.atRelease p _ _ fun n u hu hp => State.StoreSound.same ?_ (State.report_sameStore _ p _))
  unfold applyEffect
  split
  · split
    · exact he _ u hu hp
    · exact hu
  · exact hu

/-! ## Bodies -/

theorem voteBody_storeSound (p : Port) (bytes : List Byte) (h : s.StoreSound) : (voteBody p bytes s).1.StoreSound := by
  unfold voteBody
  split
  · split
    · split
      · exact h
      · exact Upd.finish_storeSound (h.applyVotes _)
    · exact h
  · exact h

theorem resetPortBody_storeSound (p : Port) (bytes : List Byte) (h : s.StoreSound) :
    (resetPortBody p bytes s).1.StoreSound := by
  cases bytes with
  | nil => exact h
  | cons b bytes =>
    simp only [resetPortBody]
    exact h.portReset p

theorem resumeBody_storeSound (bytes : List Byte) (h : s.StoreSound) : (resumeBody bytes s).1.StoreSound := by
  unfold resumeBody
  split
  · split
    · exact h.same (s.confine_sameStore _)
    all_goals exact h
  · exact h

theorem State.StoreSound.requestMailbox (h : s.StoreSound) (r : Ref) (rec : MailRecord) :
    (s.requestMailbox r rec).StoreSound := by
  have henqueue : (s.enqueue r rec).StoreSound := h.frame (s.enqueue_only r rec) (by decide) (by decide) (by decide)
  unfold State.requestMailbox
  split
  · exact henqueue.localPass false
  · exact henqueue

theorem requestBody_storeSound (p : Port) (bytes : List Byte) (h : s.StoreSound) :
    (requestBody p bytes s).1.StoreSound := by
  unfold requestBody
  split
  · split
    next i _ =>
      rcases requestChecks_state s ⟨p, i⟩ with e | ⟨rec, e⟩
      · rw [e]; exact h
      · rw [e]; exact h.requestMailbox _ rec
    · exact h
  · exact h

theorem abortBody_storeSound (p : Port) (bytes : List Byte) (h : s.StoreSound) : (abortBody p bytes s).1.StoreSound := by
  unfold abortBody
  split
  · split
    · unfold abortChecks
      split
      case h_1 | h_2 | h_3 => exact Upd.finish_storeSound (h.same (s.complete_sameStore _ _ _))
      case h_4 => exact h.frame (s.putMailbox_only _ _) (by decide) (by decide) (by decide)
      all_goals exact h
    · exact h
  · exact h

/-- R140, R148: the new capacity lies between 1 and 16, and holds the records that are there. -/
theorem setQueueBody_storeSound (p : Port) (bytes : List Byte) (h : s.StoreSound) :
    (setQueueBody p bytes s).1.StoreSound := by
  unfold setQueueBody
  split
  next capacity _ _ =>
    split
    next policy _ =>
      split
      · exact h
      next hbounds =>
        split
        · exact h
        next hlen =>
          have hset : (s.setQueue p capacity.toNat policy).StoreSound := by
            obtain ⟨-, -, -, hslots, hlosses, hrecs, hpin⟩ := h.safe.queues p
            exact h.putQueue (v := { s.queue p with capacity := capacity.toNat, policy := policy })
              ⟨by simp only []; omega, by simp only []; omega, Nat.not_lt.1 hlen, hslots, hlosses, hrecs, hpin⟩ rfl
          simp only []
          split
          · exact hset.localPass true
          · exact hset
    · exact h
  · exact h

theorem State.StoreSound.removeHead (h : s.StoreSound) (hpin : (s.queue p).txnPin = false) :
    (s.removeHead p).finish.StoreSound := by
  refine Upd.finish_storeSound ((State.storeSafe_iff _).1 ?_)
  have hrx : (s.removeHead p).state.store.rxSlot = s.store.rxSlot := by
    cases hr : (s.queue p).records with
    | nil => simp only [State.removeHead, hr]; rfl
    | cons r rest =>
      obtain ⟨-, -, -, -, hstore⟩ := s.removeHead_cons p r rest hr
      rw [hstore]
  rw [hrx]
  exact h.safe.removeHead hpin

theorem releaseBody_storeSound (p : Port) (bytes : List Byte) (h : s.StoreSound) (hpin : (s.queue p).txnPin = false) :
    (releaseBody p bytes s).1.StoreSound := by
  unfold releaseBody
  split
  · split
    · exact h
    · exact h.removeHead hpin
  · exact h

theorem pinHead_storeSound (p : Port) (e : SideEffect) (h : s.StoreSound) : (pinHead p e s).StoreSound := by
  by_cases hr : (s.queue p).records = []
  · simpa [pinHead, hr] using h
  · rw [pinHead_putQueue e hr]
    exact h.putQueue (Queue.Sound.setPins (h.safe.queues p) (b := (s.queue p).txnPin) fun _ => .inr hr) rfl

theorem setPortBody_storeSound (p : Port) (bytes : List Byte) (h : s.StoreSound) : (setPortBody p bytes s).1.StoreSound := by
  have hset : ∀ m x, (s.setPort p m x).StoreSound := fun m x =>
    State.StoreSound.frame (h.same (State.putEngine_sameStore (e := { s.engine p with mask := m }) rfl))
      (State.putOrder_only _ p x) (by decide) (by decide) (by decide)
  unfold setPortBody
  split
  · split
    · split
      · exact hset _ _
      · exact h
    · exact h
  · exact h

/-- R145, R163: ACKNOWLEDGE leaves RX. -/
theorem acknowledgeBody_storeSound (p : Port) (bytes : List Byte) (h : s.StoreSound) :
    (acknowledgeBody p bytes s).1.StoreSound := by
  unfold acknowledgeBody
  split
  · split
    · exact h.same (State.putEngine_sameStore rfl)
    · exact h
  · exact h

/-! ## Line events and resets -/

theorem execTurnBegins_storeSound (h : s.StoreSound) : AnswerAll State.StoreSound (execTurnBegins s) := by
  unfold execTurnBegins
  split
  · refine answerAll_next ?_
    split
    · exact h.frame s.firstTurnBegins_only (by decide) (by decide) (by decide)
    · exact h.beginTurnIdle
  · exact answerAll_next h

theorem execActivityBegins_storeSound (h : s.StoreSound) : AnswerAll State.StoreSound (execActivityBegins s) := by
  unfold execActivityBegins
  split
  · exact answerAll_next (h.turnAtActivity.putLine _)
  · exact answerAll_next h

theorem execTurnCheck_storeSound (chars : List RxChar) (h : s.StoreSound) :
    AnswerAll State.StoreSound (execTurnCheck chars s) := by
  unfold execTurnCheck
  split
  · split
    · exact answerAll_next (h.headerZero _ _)
    · exact answerAll_next h
  · exact answerAll_next h

theorem execReceptionEnd_storeSound (rest : List RxChar) (h : s.StoreSound) :
    AnswerAll State.StoreSound (execReceptionEnd rest s) := by
  unfold execReceptionEnd
  split
  · simp only []
    split
    · exact answerAll_next (h.receptionEnd _ _)
    · exact answerAll_next h
  · exact answerAll_next h

theorem execCollision_storeSound (k : Nat) (c : RxChar) (h : s.StoreSound) :
    AnswerAll State.StoreSound (execCollision k c s) := by
  unfold execCollision
  split
  · split
    · split
      · refine answerAll_next ?_
        split
        · exact (h.transmissionEnd _ _).receiveAfterCollision _ k c
        · exact h.transmissionEnd _ _
      · exact answerAll_next h
    · exact answerAll_next h
  · exact answerAll_next h

theorem execCheckWordReadBack_storeSound (h : s.StoreSound) : AnswerAll State.StoreSound (execCheckWordReadBack s) := by
  unfold execCheckWordReadBack
  split
  · split
    · exact answerAll_next ((h.transmissionEnd _ _).putLine _)
    · exact answerAll_next (h.putLine _)
  · exact answerAll_next h

theorem execTransmissionEnd_storeSound (reply : Option RxChar) (h : s.StoreSound) :
    AnswerAll State.StoreSound (execTransmissionEnd reply s) := by
  unfold execTransmissionEnd
  split
  · exact answerAll_next ((h.transmissionEnd _ _).putLine _)
  · exact answerAll_next h

theorem execSyncIdleCount_storeSound (h : s.StoreSound) : AnswerAll State.StoreSound (execSyncIdleCount s) := by
  unfold execSyncIdleCount
  split
  · refine answerAll_next ?_
    split
    · exact h.syncByIdle
    · exact h.syncByIdle.frame (State.firstTurnBegins_only _) (by decide) (by decide) (by decide)
  · exact answerAll_next h

theorem execPortReset_storeSound (p : Port) (h : s.StoreSound) : AnswerAll State.StoreSound (execPortReset p s) := by
  unfold execPortReset
  split
  · exact answerAll_next h
  · have hpin : (s.setPrst p true).StoreSound := h.same (State.putEngine_sameStore rfl)
    exact answerAll_next (hpin.portReset p)

/-- A row that leaves frame store, queues and engines. -/
theorem State.StoreSound.answers (h : s.StoreSound) {a : Answer} (ha : s.AnswersWith l a) (hs : Part.store ∉ l)
    (hq : Part.queues ∉ l) (he : Part.engines ∉ l) : AnswerAll State.StoreSound a :=
  fun t ht => h.frame (ha t ht) hs hq he

/-! ## Every row -/

/-- R135, R139, R140, R143, R145, R146: every row keeps holder counts, reception slot, queues and RX in agreement. -/
theorem exec_storeSound (c : Instr) (h : s.StoreSound) : AnswerAll State.StoreSound (exec c s) := by
  cases c with
  | deviceReset => exact answerAll_next s.deviceReset_storeSound
  | deviceResetEnds => exact answerAll_next (h.same ⟨rfl, rfl, fun _ => rfl, fun _ => rfl⟩)
  | portReset p => exact execPortReset_storeSound p h
  | prstRelease p => exact answerAll_next (h.same (State.putEngine_sameStore rfl))
  | transactionBegin p => exact answerAll_next (h.beginTransaction p)
  | readSnapshot p cmd arg => exact execReadSnapshot_storeSound p cmd arg h
  | transactionWithoutCommand p => exact answerAll_next (h.atRelease p _ _ fun _ _ hu _ => hu)
  | badCommand p code bytes =>
    simp only [exec, execBadCommand]
    split
    · exact answerAll_next h
    · exact answerAll_next (h.takeCode p code _ fun _ hu _ => hu)
  | vote p bytes => exact takeCommand_storeSound p .vote _ (fun _ hu _ => voteBody_storeSound p bytes hu) h
  | resetPort p bytes => exact takeCommand_storeSound p .resetPort _ (fun _ hu _ => resetPortBody_storeSound p bytes hu) h
  | resume p bytes => exact takeCommand_storeSound p .resume _ (fun _ hu _ => resumeBody_storeSound bytes hu) h
  | request p bytes => exact takeCommand_storeSound p .request _ (fun _ hu _ => requestBody_storeSound p bytes hu) h
  | abort p bytes => exact takeCommand_storeSound p .abort _ (fun _ hu _ => abortBody_storeSound p bytes hu) h
  | setQueue p bytes => exact takeCommand_storeSound p .setQueue _ (fun _ hu _ => setQueueBody_storeSound p bytes hu) h
  | release p bytes => exact takeCommand_storeSound p .release _ (fun _ hu hp => releaseBody_storeSound p bytes hu hp) h
  | setPort p bytes => exact takeCommand_storeSound p .setPort _ (fun _ hu _ => setPortBody_storeSound p bytes hu) h
  | acknowledge p bytes =>
    exact takeCommand_storeSound p .acknowledge _ (fun _ hu _ => acknowledgeBody_storeSound p bytes hu) h
  | nop p bytes => exact takeCommand_storeSound p .nop _ (fun u hu _ => by rw [nopBody_state]; exact hu) h
  | configure p bytes =>
    exact takeCommand_frame_storeSound p .configure _ (configureBody_only · bytes) (by decide) (by decide) (by decide) h
  | load p bytes =>
    exact takeCommand_frame_storeSound p .load _ (loadBody_only · p bytes) (by decide) (by decide) (by decide) h
  | clear p bytes =>
    exact takeCommand_frame_storeSound p .clear _ (clearBody_only · p bytes) (by decide) (by decide) (by decide) h
  | claim p bytes =>
    exact takeCommand_frame_storeSound p .claim _ (claimBody_only · p bytes) (by decide) (by decide) (by decide) h
  | releaseChannel p bytes =>
    exact takeCommand_frame_storeSound p .releaseChannel _ (fun u => ownerCommand_only u p bytes _ _ u.releaseChannel_only)
      (by decide) (by decide) (by decide) h
  | halt p bytes =>
    exact takeCommand_frame_storeSound p .halt _ (fun u => ownerCommand_only u p bytes _ _ (u.setChannelState_only _))
      (by decide) (by decide) (by decide) h
  | openChannel p bytes =>
    exact takeCommand_frame_storeSound p .openChannel _ (fun u => ownerCommand_only u p bytes _ _ (u.setChannelState_only _))
      (by decide) (by decide) (by decide) h
  | setEntry p bytes =>
    exact takeCommand_frame_storeSound p .setEntry _ (setEntryBody_only · p bytes) (by decide) (by decide) (by decide) h
  | freeEntry p bytes =>
    exact takeCommand_frame_storeSound p .freeEntry _ (freeEntryBody_only · p bytes) (by decide) (by decide) (by decide) h
  | readLine p k =>
    exact takeRead_storeSound p .line k _
      (fun e u hu _ => hu.frame (reduceCounters_only u e) (by decide) (by decide) (by decide)) h
  | readCompletion p k =>
    exact takeRead_storeSound p .completion k _
      (fun e u hu _ => hu.frame (dropReported_only u p e) (by decide) (by decide) (by decide)) h
  | peek p k => exact takeRead_storeSound p .peek k _ (fun e _ hu _ => pinHead_storeSound p e hu) h
  | take p k => exact takeRead_storeSound p .take k _ (fun _ _ hu hp => hu.removeHead hp) h
  | readMailbox p k => exact takeRead_storeSound p .mailbox k _ (fun _ _ hu _ => hu) h
  | readChannel p k => exact takeRead_storeSound p .channel k _ (fun _ _ hu _ => hu) h
  | readEntry p k => exact takeRead_storeSound p .entry k _ (fun _ _ hu _ => hu) h
  | readQueue p k => exact takeRead_storeSound p .queue k _ (fun _ _ hu _ => hu) h
  | turnBegins => exact execTurnBegins_storeSound h
  | activityBegins => exact execActivityBegins_storeSound h
  | turnCheck chars => exact execTurnCheck_storeSound chars h
  | receptionEnd rest => exact execReceptionEnd_storeSound rest h
  | collision k c => exact execCollision_storeSound k c h
  | checkWordReadBack => exact execCheckWordReadBack_storeSound h
  | transmissionEnd reply => exact execTransmissionEnd_storeSound reply h
  | syncIdleCount => exact execSyncIdleCount_storeSound h
  | replyByteStart => exact h.answers (execReplyByteStart_only s) (by decide) (by decide) (by decide)
  | replyByteEnd => exact h.answers (execReplyByteEnd_only s) (by decide) (by decide) (by decide)
  | lineTimeEnd => exact h.answers (execLineTimeEnd_only s) (by decide) (by decide) (by decide)
  | syncEntryIdleSeen => exact h.answers (execSyncEntryIdleSeen_only s) (by decide) (by decide) (by decide)

/-- Settles O58: a step is the row of the front command, or idles, and every row keeps the agreement. -/
theorem stepKeepsStoreSound : Obligations.StepKeepsStoreSound := by
  intro s t hs hstep
  unfold step at hstep
  split at hstep
  · cases hstep
    exact hs
  next c rest _ =>
    have h : State.StoreSound { s with pending := rest } := hs
    exact exec_storeSound c h t hstep

end Sys2Proof.Machine
end

section
/-! Space events (R84, R85, R88): what a local pass makes of the queues, and the pass that decides the one LOCAL mailbox that
waits for space. -/

namespace Sys2Proof.Machine

variable {s t u : State} {w r : Ref} {rec : MailRecord} {p : Port}

/-! ## Queues that a pass fills -/

/-- R84, R86, R141: at a port, settings, pins and the records that are there stay, and RX goes on to follow the queue. -/
structure State.QueueGrows (s t : State) (p : Port) : Prop where
  capacity : (t.queue p).capacity = (s.queue p).capacity
  policy : (t.queue p).policy = (s.queue p).policy
  pin : (t.queue p).pin = (s.queue p).pin
  txnPin : (t.queue p).txnPin = (s.queue p).txnPin
  records : (s.queue p).records <+: (t.queue p).records
  rx : s.RxFollows p → t.RxFollows p

theorem State.QueueGrows.refl (s : State) (p : Port) : s.QueueGrows s p := ⟨rfl, rfl, rfl, rfl, List.prefix_refl _, id⟩

theorem State.QueueGrows.trans (h : s.QueueGrows t p) (g : t.QueueGrows u p) : s.QueueGrows u p :=
  ⟨g.capacity.trans h.capacity, g.policy.trans h.policy, g.pin.trans h.pin, g.txnPin.trans h.txnPin,
    h.records.trans g.records, g.rx ∘ h.rx⟩

theorem State.SameStore.queueGrows (h : s.SameStore t) (p : Port) : s.QueueGrows t p := by
  obtain ⟨-, -, hq, hrx⟩ := h
  have hfollows : s.RxFollows p → t.RxFollows p := fun hf => by rw [State.RxFollows, hrx, hq]; exact hf
  exact ⟨by rw [hq], by rw [hq], by rw [hq], by rw [hq], by rw [hq], hfollows⟩

/-- R86: a hand-off puts a record at the tail of one queue. -/
theorem State.handOff_queueGrows (s : State) (r : Ref) (rec : MailRecord) (q : Port) (i : SlotNo) (p : Port) :
    s.QueueGrows (s.handOff r rec q i) p := by
  have hqueue := s.handOff_queue r rec q i p
  by_cases hp : p = q
  · rw [if_pos hp] at hqueue
    subst hp
    refine ⟨by rw [hqueue], by rw [hqueue], by rw [hqueue], by rw [hqueue], ?_, fun _ => ?_⟩
    · rw [hqueue]
      exact List.prefix_append _ _
    · rw [State.RxFollows, State.handOff_rx, hqueue]
      simp
  · rw [if_neg hp] at hqueue
    have hrx : ((s.handOff r rec q i).engine p).flags.rx = (s.engine p).flags.rx := by
      have hsame := (State.complete_sameStore (s.localDelivered r rec q i) r .accepted none).2.2.2 p
      have hother : (s.localDelivered r rec q i).engine p = s.engine p := by
        rw [State.localDelivered, State.appendRecord_engine, if_neg hp]
        rfl
      rw [State.handOff_eq, hsame, hother]
    refine ⟨by rw [hqueue], by rw [hqueue], by rw [hqueue], by rw [hqueue], by rw [hqueue], fun h => ?_⟩
    rw [State.RxFollows, hrx, hqueue]
    exact h

theorem State.passAt_queueGrows (retry : Bool) (s : State) (r : Ref) (p : Port) :
    s.QueueGrows (State.passAt retry s r) p := by
  rcases State.passAt_cases retry s r with e | ⟨-, -, e | ⟨rec, q, i, e⟩ | e⟩
  · rw [e]
    exact .refl s p
  · rw [e]
    exact State.SameStore.queueGrows (.of_only (s.putMailbox_only r _) (by decide) (by decide) (by decide)) p
  · rw [e]
    exact s.handOff_queueGrows r rec q i p
  · rw [e]
    exact (s.complete_sameStore r _ _).queueGrows p

theorem State.localPass_queueGrows (retry : Bool) (s : State) (p : Port) : s.QueueGrows (s.localPass retry) p :=
  State.localPass_keeps (P := fun t => s.QueueGrows t p) retry (fun t r ht => ht.trans (t.passAt_queueGrows retry r p))
    (.refl s p)

theorem State.localPass_onlyOtherFlags (retry : Bool) (s : State) : s.OnlyOtherFlags (s.localPass retry) :=
  State.localPass_keeps (P := s.OnlyOtherFlags) retry (fun t r ht => ht.trans (t.passAt_onlyOtherFlags retry r)) (.refl s)

/-- A report leaves the queues, and RX. -/
theorem State.report_queueGrows (s : State) (p : Port) (x : Result) (q : Port) : s.QueueGrows (s.report p x) q :=
  (s.report_sameStore p x).queueGrows q

/-- R155: what the release of a command under OK makes of the state `s` that its body leaves, with a local pass or without. -/
structure State.ReleasedOk (s t : State) (p : Port) : Prop where
  lastResult : (t.engine p).lastResult = .ok
  txn : (t.engine p).txn = (s.engine p).txn
  grows : ∀ q, s.QueueGrows t q
  only : s.OnlyChanges t passParts

theorem State.report_releasedOk (s : State) (p : Port) : s.ReleasedOk (s.report p .ok) p where
  lastResult := by rw [State.report_engine, if_pos rfl]
  txn := by rw [State.report_engine, if_pos rfl]
  grows := s.report_queueGrows p .ok
  only := (s.report_only p .ok).mono (by decide)

theorem State.localPass_releasedOk (s : State) (p : Port) : s.ReleasedOk ((s.localPass true).report p .ok) p := by
  obtain ⟨hresult, htxn, hgrows, honly⟩ := (s.localPass true).report_releasedOk p
  exact ⟨hresult, htxn.trans ((State.localPass_onlyOtherFlags true s).txn p),
    fun q => (State.localPass_queueGrows true s q).trans (hgrows q), (State.localPass_only s true).trans honly⟩

/-! ## The pass that decides what waits -/

/-- R84: a pass leaves a mailbox that is not LOCAL, or neither QUEUED nor WAITING_SPACE. -/
theorem State.Undecided.passAt (h : s.Undecided r) (retry : Bool) : State.passAt retry s r = s := by
  rcases State.passAt_cases retry s r with e | ⟨hl, hst, -⟩
  · exact e
  · rcases h with h | ⟨hq, hw⟩
    · rw [h] at hl
      cases hl
    · exact (hst.elim hq hw).elim

/-- R84: a retry decides a LOCAL mailbox that waits for space. -/
theorem State.passAt_waiting (hrec : (s.mailbox r).record = some rec) (hk : rec.kind = .localHandOff)
    (hst : (s.mailbox r).state = .waitingSpace) : State.passAt true s r = s.decideLocal r rec := by
  simp [State.passAt, hrec, hk, hst]

/-- R62: a mailbox that waits goes on waiting as it is. -/
theorem State.waitForSpace_of_waiting (h : (s.mailbox r).state = .waitingSpace) : s.waitForSpace r = s := by
  have hm : { s.mailbox r with state := .waitingSpace } = s.mailbox r := by rw [← h]
  rw [State.waitForSpace, hm]
  simp only [State.putMailbox, State.mailbox, Fin.getElem_fin, Vector.set_getElem_self]

/-- R84: the decision of what waits is final in its pass: it waits on as it was, or has entered DONE. -/
theorem State.passAt_decided (hrec : (s.mailbox r).record = some rec) (hk : rec.kind = .localHandOff)
    (hst : (s.mailbox r).state = .waitingSpace) :
    State.passAt true (s.decideLocal r rec) r = s.decideLocal r rec := by
  rcases s.decideLocal_cases r rec with e | ⟨p, i, e⟩ | e
  · have hstill : s.decideLocal r rec = s := by rw [e, State.waitForSpace_of_waiting hst]
    rw [hstill, State.passAt_waiting hrec hk hst, hstill]
  · obtain ⟨hdone, -⟩ := s.handOff_completed r rec p i
    rw [e]
    exact State.Undecided.passAt (.of_state (by rw [hdone]; decide) (by rw [hdone]; decide)) true
  · have hdone : ((s.complete r .refused none).mailbox r).state = .done := by rw [(s.complete_writes r _ _).self]
    rw [e]
    exact State.Undecided.passAt (.of_state (by rw [hdone]; decide) (by rw [hdone]; decide)) true

theorem State.foldl_passAt_fixed {retry : Bool} {l : List Ref} (h : ∀ q ∈ l, State.passAt retry s q = s) :
    l.foldl (State.passAt retry) s = s := by
  induction l with
  | nil => rfl
  | cons q l ih =>
    rw [List.foldl_cons, h q List.mem_cons_self]
    exact ih fun x hx => h x (List.mem_cons_of_mem _ hx)

/-- R84: a retry decides the only LOCAL mailbox of the pending list, if it waits for space. -/
theorem State.OnlyLocal.localPass_retry (h : s.OnlyLocal w rec) (hst : (s.mailbox w).state = .waitingSpace) :
    s.localPass true = s.decideLocal w rec := by
  obtain ⟨hw, hrec, hk, hothers⟩ := h
  obtain ⟨before, after, hl, hnot⟩ := List.eq_append_cons_of_mem hw
  have hbefore : ∀ q ∈ before, State.passAt true s q = s := fun q hq =>
    State.Undecided.passAt (.inl (hothers q (by rw [hl]; exact List.mem_append_left _ hq) fun e => hnot (e ▸ hq))) true
  have hafter : ∀ q ∈ after, State.passAt true (s.decideLocal w rec) q = s.decideLocal w rec := fun q hq => by
    by_cases hqw : q = w
    · rw [hqw]
      exact State.passAt_decided hrec hk hst
    · have hlocal := hothers q (by rw [hl]; exact List.mem_append_right _ (List.mem_cons_of_mem _ hq)) hqw
      exact State.Undecided.passAt
        (.inl ((State.isLocal_congr (by rw [s.decideLocal_other hqw rec])).trans hlocal)) true
  rw [State.localPass, hl, List.foldl_append, State.foldl_passAt_fixed hbefore, List.foldl_cons,
    State.passAt_waiting hrec hk hst, State.foldl_passAt_fixed hafter]

/-- The decision rests on store and queues, and else on parts that ports do not hold. -/
theorem State.LocalDecided.of_ports (h : s.LocalDecided t w rec) (hf : s.OnlyChanges u [.store, .queues, .engines])
    (hst : u.store = s.store) (hq : ∀ q, u.queue q = s.queue q) : u.LocalDecided t w rec := by
  have hch : ∀ c, u.channel c = s.channel c := fun c => by
    have e : u.channels = s.channels := hf.2 .channels (by decide)
    simp only [State.channel, e]
  have hr : u.sched.refs = s.sched.refs := hf.2 .refs (by decide)
  have hl : u.line = s.line := hf.line (by decide)
  have hm := hf.mailbox (by decide) w
  have hfree : ∀ i, u.slotFree i = s.slotFree i := fun i => by simp only [State.slotFree, hst]
  simpa only [State.LocalDecided, State.Completed, State.LowestFree, hch, hq, hst, hr, hl, hm, hfree] using h

/-- R85, R88: a space event where one LOCAL mailbox waits, the only one pending: what the release reports is its decision. -/
theorem State.OnlyLocal.report_localDecided (h : s.OnlyLocal w rec) (hst : (s.mailbox w).state = .waitingSpace) (p : Port)
    (x : Result) : s.LocalDecided ((s.localPass true).report p x) w rec := by
  rw [h.localPass_retry hst]
  exact (s.decideLocal_localDecided w rec).leaves ((State.report_only _ p x).mono (by decide)) (State.report_leaves _ p x w)
    fun q hq => State.report_rx hq x

end Sys2Proof.Machine
end

section
/-! O36, O39: SET_QUEUE, TAKE and RELEASE (R147, R148, R150, R151), and the LOCAL mailbox that is served on the room that they
leave (R84, R85, R87, R88). -/

namespace Sys2Proof.Machine

variable {s : State} {p : Port}

/-! ## SET_QUEUE -/

section
variable {a b : Byte} (rest : List Byte)

theorem setQueueBody_refused (h : a = 0 ∨ 16 < a.toNat ∨ 1 < b.toNat) :
    setQueueBody p (a :: b :: rest) s = (s, .badArgument) := by
  by_cases hb : b.toNat ≤ 1
  · have hbounds : a.toNat = 0 ∨ 16 < a.toNat := by
      rcases h with rfl | h | h
      · exact .inl rfl
      · exact .inr h
      · omega
    simp only [setQueueBody, OverflowPolicy.ofByte_some hb, if_pos hbounds]
  · simp only [setQueueBody, OverflowPolicy.ofByte_none (Nat.lt_of_not_le hb)]

variable (ha : a ≠ 0) (h16 : a.toNat ≤ 16)
include ha h16

theorem capacity_bounds : ¬ (a.toNat = 0 ∨ 16 < a.toNat) := by
  rintro (h | h)
  · exact ha (BitVec.eq_of_toNat_eq h)
  · omega

variable (hb : b.toNat ≤ 1)
include hb

theorem setQueueBody_busy (h : a.toNat < (s.queue p).records.length) :
    setQueueBody p (a :: b :: rest) s = (s, .busy) := by
  simp only [setQueueBody, OverflowPolicy.ofByte_some hb, if_neg (capacity_bounds ha h16), if_pos h]

theorem setQueueBody_taken (h : (s.queue p).records.length ≤ a.toNat) :
    setQueueBody p (a :: b :: rest) s
      = (if (s.queue p).capacity < a.toNat then
            (s.setQueue p a.toNat (if b = 0 then .dropNew else .displace)).localPass true
          else s.setQueue p a.toNat (if b = 0 then .dropNew else .displace), .ok) := by
  simp only [setQueueBody, OverflowPolicy.ofByte_some hb, if_neg (capacity_bounds ha h16), if_neg (Nat.not_lt.2 h)]

end

/-- R148, R155: the settings of the queue at the release, before any local pass. -/
def State.queueSet (s : State) (p : Port) (capacity : Nat) (policy : OverflowPolicy) : State :=
  (s.closeTransaction p).setQueue p capacity policy

theorem State.queueSet_only (s : State) (p : Port) (k : Nat) (x : OverflowPolicy) :
    s.OnlyChanges (s.queueSet p k x) [.engines, .queues] :=
  (s.closeTransaction_only p).seq (State.putQueue_only _ p _) (by decide)

theorem State.queueSet_queue (s : State) (p q : Port) (k : Nat) (x : OverflowPolicy) :
    (s.queueSet p k x).queue q
      = if q = p then { s.queue p with capacity := k, policy := x, txnPin := false } else s.queue q := by
  rw [State.queueSet, State.setQueue, State.putQueue_queue, State.closeTransaction_queue, State.closeTransaction_queue,
    if_pos rfl]
  split <;> rfl

/-- R148, R88: SET_QUEUE under OK sets the queue, and a raised capacity is a space event. -/
theorem State.takeSetQueue_eq {a b : Byte} (rest : List Byte) (hin : s.InTransaction p) (ha : a ≠ 0) (h16 : a.toNat ≤ 16)
    (hb : b.toNat ≤ 1) (hlen : (s.queue p).records.length ≤ a.toNat) :
    s.takeCommand p .setQueue (setQueueBody p (a :: b :: rest))
      = (if (s.queue p).capacity < a.toNat then
            (s.queueSet p a.toNat (if b = 0 then .dropNew else .displace)).localPass true
          else s.queueSet p a.toNat (if b = 0 then .dropNew else .displace)).report p .ok := by
  have hcap : ((s.closeTransaction p).queue p).capacity = (s.queue p).capacity := by
    rw [State.closeTransaction_queue, if_pos rfl]
  rw [s.takeCommand_eq p .setQueue _ hin,
    setQueueBody_taken rest ha h16 hb (by rw [(s.closeTransaction_queue_keeps p p).1]; exact hlen), hcap]
  rfl

section
variable (s p) (k : Nat) (policy : OverflowPolicy)

theorem State.queueSet_txn : ((s.queueSet p k policy).engine p).txn = none := by
  have e : (s.queueSet p k policy).engine p = (s.closeTransaction p).engine p := rfl
  rw [e, State.closeTransaction_engine, if_pos rfl]

/-- What SET_QUEUE leaves under OK, whether or not the capacity is raised. -/
theorem State.setQueue_releasedOk :
    (s.queueSet p k policy).ReleasedOk
      ((if (s.queue p).capacity < k then (s.queueSet p k policy).localPass true else s.queueSet p k policy).report p .ok)
      p := by
  split
  · exact State.localPass_releasedOk _ p
  · exact State.report_releasedOk _ p

variable {s p k}

/-- R84, R148: with no LOCAL mailbox pending, or without a raise of the capacity, no mailbox is decided. -/
theorem State.setQueue_still (h : s.NoLocalPending ∨ k ≤ (s.queue p).capacity) :
    (if (s.queue p).capacity < k then (s.queueSet p k policy).localPass true else s.queueSet p k policy)
      = s.queueSet p k policy := by
  split
  next hraised =>
    have hno := h.resolve_right (Nat.not_le.2 hraised)
    exact State.localPass_none _ true (hno.of_only (s.queueSet_only p k policy) (by decide) (by decide))
  next => rfl

end

/-- Settles O36: the checks in order; then the settings, and where the capacity is raised the local pass on them. -/
theorem setQueueWritesSettings : Obligations.SetQueueWritesSettings := by
  intro s p hin a b rest
  refine ⟨fun h => ⟨_, rfl, State.takeCommand_refused .setQueue hin (setQueueBody_refused rest h)⟩,
    fun ha h16 hb => ⟨fun hlt => ⟨_, rfl, ?_⟩, fun hlen => ?_⟩⟩
  · refine State.takeCommand_refused .setQueue hin (setQueueBody_busy rest ha h16 hb ?_)
    rw [(s.closeTransaction_queue_keeps p p).1]
    exact hlt
  · have hexec : exec (.setQueue p (a :: b :: rest)) s
        = .next (s.takeCommand p .setQueue (setQueueBody p (a :: b :: rest))) := rfl
    rw [hexec, State.takeSetQueue_eq rest hin ha h16 hb hlen]
    generalize (if b = 0 then OverflowPolicy.dropNew else .displace) = policy
    have hqueue := s.queueSet_queue p (k := a.toNat) (x := policy)
    have hself := (hqueue p).trans (if_pos rfl)
    have hother : ∀ q, q ≠ p → (s.queueSet p a.toNat policy).queue q = s.queue q := fun q hq =>
      (hqueue q).trans (if_neg hq)
    have hfrom := s.queueSet_only p a.toNat policy
    obtain ⟨hresult, htxn, hgrows, honly⟩ := s.setQueue_releasedOk p a.toNat policy
    refine ⟨_, rfl, hresult, htxn.trans (s.queueSet_txn p _ _), ?_, ?_, ?_, ?_, fun q hq => ?_,
      (hfrom.mono (by decide)).trans (honly.mono (by decide)), fun hno => ?_, fun w rec v hraised hw hst hv hvo hvp => ?_⟩
    · rw [(hgrows p).capacity, hself]
    · rw [(hgrows p).policy, hself]
    · rw [(hgrows p).pin, hself]
    · simpa only [hself] using (hgrows p).records
    · rw [← hother q hq]
      exact ⟨(hgrows q).capacity, (hgrows q).policy, (hgrows q).records⟩
    · rw [State.setQueue_still policy hno]
      exact ⟨hself, hother, (hfrom.mono (by decide)).seq (State.report_only _ p _) (by decide)⟩
    · have hwaits : ((s.queueSet p a.toNat policy).mailbox w).state = .waitingSpace := by
        rw [hfrom.mailbox (by decide), hst]
      have hdecided := (hw.frame hfrom (by decide) (by decide)).report_localDecided hwaits p .ok
      rw [if_pos hraised]
      refine hdecided.of_ports ((hfrom.mono (by decide)).between (hv.mono (by decide))) ?_ fun q => ?_
      · exact Eq.trans (hv.2 .store (by decide)) (Eq.symm (hfrom.2 .store (by decide)))
      · by_cases hq : q = p
        · rw [hq, hvp, hself]
        · rw [hvo q hq, hother q hq]

/-! ## TAKE and RELEASE -/

/-- R147, R155: the head has left the queue at the release, before any local pass. -/
def State.headRemoved (s : State) (p : Port) : State := ((s.closeTransaction p).removeHead p).state

theorem State.headRemoved_only (s : State) (p : Port) : s.OnlyChanges (s.headRemoved p) [.store, .queues, .engines] :=
  ((s.closeTransaction_only p).mono (by decide)).trans (State.removeHead_only _ p)

section
variable {r : QueueRecord} {others : List QueueRecord} (h : (s.queue p).records = r :: others)
include h

theorem State.closeTransaction_records : ((s.closeTransaction p).queue p).records = r :: others := by
  rw [(s.closeTransaction_queue_keeps p p).1, h]

theorem State.headRemoved_queue (q : Port) :
    (s.headRemoved p).queue q
      = if q = p then { s.queue p with records := others, pin := false, txnPin := false } else s.queue q := by
  obtain ⟨-, -, hqueue, -⟩ := (s.closeTransaction p).removeHead_cons p r others (State.closeTransaction_records h)
  rw [State.headRemoved, hqueue, State.closeTransaction_queue, State.closeTransaction_queue, if_pos rfl]
  split <;> rfl

theorem State.headRemoved_engine (q : Port) :
    (s.headRemoved p).engine q
      = if q = p then { s.engine p with flags := { (s.engine p).flags with rx := !others.isEmpty },
                                        csLow := false, txn := none }
        else s.engine q := by
  obtain ⟨-, -, -, hengine, -⟩ := (s.closeTransaction p).removeHead_cons p r others (State.closeTransaction_records h)
  rw [State.headRemoved, hengine, State.closeTransaction_engine, State.closeTransaction_engine, if_pos rfl]
  split <;> rfl

theorem State.headRemoved_store :
    (s.headRemoved p).store
      = { s.store with holders := s.store.holders.set r.slot (s.store.holders[r.slot] - 1) } := by
  obtain ⟨-, -, -, -, hstore⟩ := (s.closeTransaction p).removeHead_cons p r others (State.closeTransaction_records h)
  exact hstore

/-- R145: RX follows the queue. -/
theorem State.headRemoved_rxFollows : (s.headRemoved p).RxFollows p := by
  rw [State.RxFollows, State.headRemoved_engine h, State.headRemoved_queue h, if_pos rfl, if_pos rfl]

/-- R88: the removal of a head is a space event. -/
theorem State.removeHead_finish_eq : ((s.closeTransaction p).removeHead p).finish = (s.headRemoved p).localPass true := by
  obtain ⟨hspace, -⟩ := (s.closeTransaction p).removeHead_cons p r others (State.closeTransaction_records h)
  rw [Upd.finish, if_pos hspace]
  rfl

/-- R150, R151: a complete TAKE, and a RELEASE of a non-empty queue, come to the same. -/
theorem exec_removesHead {i : Instr}
    (hi : (∃ j n, i = .take p j ∧ s.HasSnapshot p n ∧ n.cmd = .take ∧ n.verdict = .valid ∧ n.data.length ≤ j)
      ∨ ((∃ b rest, i = .release p (b :: rest)) ∧ s.InTransaction p)) :
    exec i s = .next (((s.headRemoved p).localPass true).report p .ok) := by
  rw [← State.removeHead_finish_eq h]
  rcases hi with ⟨j, n, rfl, hs, hcmd, hv, hj⟩ | ⟨⟨b, rest, rfl⟩, hin⟩
  · have hexec : exec (.take p j) s = .next (s.takeRead p n.cmd j (takeHead p)) := by rw [hcmd]; rfl
    rw [hexec, s.takeRead_some p n j _ hs, readResult_whole hv hj, if_pos rfl]
    rfl
  · have hexec : exec (.release p (b :: rest)) s = .next (s.takeCommand p .release (releaseBody p (b :: rest))) := rfl
    rw [hexec, s.takeCommand_eq p .release _ hin]
    simp only [releaseBody, State.closeTransaction_records h, List.isEmpty_cons, Bool.false_eq_true, if_false]

end

/-- R151: RELEASE of an empty queue. -/
theorem releaseBody_empty (h : (s.queue p).records = []) (b : Byte) (rest : List Byte) :
    releaseBody p (b :: rest) s = (s, .empty) := by
  simp only [releaseBody, h, List.isEmpty_nil, if_true]

/-- Settles O39: what is refused, and the removal of the head with the local pass on the room that it leaves. -/
theorem takeAndReleaseRemoveTheHead : Obligations.TakeAndReleaseRemoveTheHead := by
  intro s p
  refine ⟨fun j n hs hcmd => ?_, fun hin => ⟨_, rfl, State.takeCommand_refused .release hin rfl⟩,
    fun hin hr b rest => ⟨_, rfl, State.takeCommand_refused .release hin (releaseBody_empty ?_ b rest)⟩,
    fun i r others h hi => ?_⟩
  · have hexec : exec (.take p j) s = .next (s.takeRead p n.cmd j (takeHead p)) := by rw [hcmd]; rfl
    rw [hexec]
    exact ⟨fun hv => ⟨_, rfl, State.takeRead_incomplete_answered _ hs (readResult_empty j hv) (by decide)⟩,
      fun hv hj => ⟨_, rfl, State.takeRead_incomplete_answered _ hs (readResult_short hv hj) (by decide)⟩⟩
  · rw [(s.closeTransaction_queue_keeps p p).1, hr]
  · have hqueue := State.headRemoved_queue h
    have hengine := State.headRemoved_engine h
    have hself := (hqueue p).trans (if_pos rfl)
    have hfrom := s.headRemoved_only p
    obtain ⟨hresult, htxn, hgrows, honly⟩ := (s.headRemoved p).localPass_releasedOk p
    refine ⟨_, exec_removesHead h hi, hresult, htxn.trans (by rw [hengine, if_pos rfl]), ?_, ?_, ?_,
      (hgrows p).rx (State.headRemoved_rxFollows h), fun q hq => ?_,
      (hfrom.mono (by decide)).trans (honly.mono (by decide)), fun hno => ?_,
      fun w rec v hw hst hv hvo hvp hvs => ?_⟩
    · simpa only [hself] using (hgrows p).records
    · rw [(hgrows p).pin, hself]
    · rw [(hgrows p).txnPin, hself]
    · simpa only [hqueue, if_neg hq] using (hgrows q).records
    · rw [State.localPass_none _ true (hno.of_only hfrom (by decide) (by decide))]
      refine ⟨hself, fun q hq => ⟨?_, (hqueue q).trans (if_neg hq)⟩, State.headRemoved_store h,
        hfrom.seq (State.report_only _ p _) (by decide)⟩
      rw [State.report_engine, if_neg hq, hengine, if_neg hq]
    · have hwaits : ((s.headRemoved p).mailbox w).state = .waitingSpace := by rw [hfrom.mailbox (by decide), hst]
      have hdecided := (hw.frame hfrom (by decide) (by decide)).report_localDecided hwaits p .ok
      refine hdecided.of_ports (hfrom.between (hv.mono (by decide))) ?_ fun q => ?_
      · rw [hvs, State.headRemoved_store h]
      · by_cases hq : q = p
        · rw [hq, hvp, hself]
        · rw [hvo q hq, hqueue, if_neg hq]

end Sys2Proof.Machine
end

section
/-! O12, before the vote of the port is withdrawn: what a port reset makes of mailboxes, lists, channels, entries, queue and
engine of its port (R72, R103, R119, R134, R154, R164). -/

namespace Sys2Proof.Machine

/-! ## Mailboxes -/

/-- R72: what a port reset makes of a mailbox of its port. -/
def Mailbox.portReset (m : Mailbox) : Mailbox :=
  match m.state with
  | .sending => { m with state := .retiring, abortPending := false }
  | .retiring => m
  | _ => .vacant

/-- R54, R72: a mailbox whose frame is on the line is RETIRING after a port reset; any other is VACANT. -/
theorem Mailbox.portReset_state (m : Mailbox) :
    m.portReset.state = if m.state.onLine = true then .retiring else .vacant := by
  cases h : m.state <;> simp [Mailbox.portReset, h, MailState.onLine, Mailbox.vacant]

theorem Mailbox.portReset_onLine (m : Mailbox) : m.portReset.state.onLine = m.state.onLine := by
  rw [m.portReset_state]
  cases m.state <;> rfl

/-- A second reset finds nothing left to do. -/
theorem Mailbox.portReset_portReset (m : Mailbox) : m.portReset.portReset = m.portReset := by
  cases h : m.state <;> simp [Mailbox.portReset, h, Mailbox.vacant]

theorem State.resetMailbox_mailbox (s : State) (r q : Ref) :
    (s.resetMailbox r).state.mailbox q = if q = r then (s.mailbox r).portReset else s.mailbox q := by
  cases h : (s.mailbox r).state with
  | sending => simp [State.resetMailbox, Mailbox.portReset, h]
  | retiring =>
    simp only [State.resetMailbox, Mailbox.portReset, h, Upd.start_state]
    split
    next hq => rw [hq]
    next => rfl
  | vacant | loaded | queued | held | waitingSpace | done => simp [State.resetMailbox, Mailbox.portReset, h]

/-- R72, R75: a reference stays if its mailbox has its frame on the line. -/
theorem State.resetMailbox_refs (s : State) (r : Ref) :
    (s.resetMailbox r).state.sched.refs
      = s.sched.refs.filter (fun q => q != r || (s.mailbox q).state.onLine) := by
  have hkeep : (s.mailbox r).state.onLine = true →
      s.sched.refs.filter (fun q => q != r || (s.mailbox q).state.onLine) = s.sched.refs := fun h =>
    List.filter_eq_self.2 fun q _ => by
      by_cases hq : q = r
      · simp [hq, h]
      · simp [hq]
  have hdrop : (s.mailbox r).state.onLine = false →
      s.sched.refs.filter (fun q => q != r || (s.mailbox q).state.onLine) = s.sched.refs.filter (· != r) := fun h =>
    List.filter_congr fun q _ => by
      by_cases hq : q = r
      · simp [hq, h]
      · simp [hq]
  cases h : (s.mailbox r).state with
  | sending | retiring =>
    rw [hkeep (by rw [h]; rfl)]
    simp [State.resetMailbox, h]
  | vacant | loaded | queued | held | waitingSpace | done =>
    rw [hdrop (by rw [h]; rfl)]
    simp [State.resetMailbox, h]

variable (p : Port)

theorem Upd.each_resetMailbox_mailbox (l : List MailboxIndex) (u : Upd) (q : Ref) :
    (u.each l (fun i s => s.resetMailbox { port := p, index := i })).state.mailbox q
      = if q.port = p ∧ q.index ∈ l then (u.state.mailbox q).portReset else u.state.mailbox q := by
  induction l generalizing u with
  | nil => simp
  | cons i l ih =>
    rw [Upd.each_cons, ih, (Upd.andThen_parts _ _).1, State.resetMailbox_mailbox]
    by_cases hq : q = { port := p, index := i }
    · subst hq
      simp [Mailbox.portReset_portReset]
    · have hi : q.port = p → q.index ≠ i := fun hp hi => hq ((Ref.ext_iff' _ _).2 ⟨hp, hi⟩)
      by_cases hp : q.port = p
      · simp [hq, hp, hi hp]
      · simp [hq, hp]

theorem Upd.each_resetMailbox_refs (l : List MailboxIndex) (u : Upd) :
    (u.each l (fun i s => s.resetMailbox { port := p, index := i })).state.sched.refs
      = u.state.sched.refs.filter
          (fun q => q.port != p || !decide (q.index ∈ l) || (u.state.mailbox q).state.onLine) := by
  induction l generalizing u with
  | nil => simp
  | cons i l ih =>
    rw [Upd.each_cons, ih, (Upd.andThen_parts _ _).1, State.resetMailbox_refs, List.filter_filter]
    refine List.filter_congr fun q _ => ?_
    rw [State.resetMailbox_mailbox]
    by_cases hq : q = { port := p, index := i }
    · subst hq
      cases h : (u.state.mailbox { port := p, index := i }).state.onLine <;> simp [Mailbox.portReset_onLine, h]
    · have hi : q.port = p → q.index ≠ i := fun hp hi => hq ((Ref.ext_iff' _ _).2 ⟨hp, hi⟩)
      by_cases hp : q.port = p
      · simp [hq, hp, hi hp]
      · have hb : (q.port != p) = true := by simpa using hp
        simp [hq, hb]

theorem mem_allIndices (i : MailboxIndex) : i ∈ allIndices := by
  revert i
  decide

variable (s : State)

theorem State.resetMailboxes_eq :
    (s.resetMailboxes p).state
      = ((Upd.start s).each allIndices
          (fun i s => s.resetMailbox { port := p, index := i })).state.putCompletions p [] := rfl

theorem State.resetMailboxes_mailbox (q : Ref) :
    (s.resetMailboxes p).state.mailbox q = if q.port = p then (s.mailbox q).portReset else s.mailbox q := by
  rw [State.resetMailboxes_eq, (State.putCompletions_views _ p []).2.2.1 q, Upd.each_resetMailbox_mailbox]
  simp only [mem_allIndices, and_true, Upd.start_state]

theorem State.resetMailboxes_refs :
    (s.resetMailboxes p).state.sched.refs
      = s.sched.refs.filter (fun q => q.port != p || (s.mailbox q).state.onLine) := by
  rw [State.resetMailboxes_eq, (State.putCompletions_only _ p []).2 .refs (by decide), Upd.each_resetMailbox_refs]
  simp only [mem_allIndices, decide_true, Bool.not_true, Bool.or_false, Upd.start_state]

theorem State.resetMailboxes_completions : (s.resetMailboxes p).state.completions p = [] := by
  rw [State.resetMailboxes_eq, State.putCompletions_completions, if_pos rfl]

/-! ## Channels, entries, queue, engine -/

theorem State.closeChannels_seq :
    (s.closeChannels p).seq
      = { s.seq with inbound := s.seq.inbound.filter (fun e => (s.channel e.channel).owner != some p) } := rfl

/-- R147: emptying a queue writes no byte of a slot. -/
theorem State.emptyQueue_bytes : (s.emptyQueue p).state.store.bytes = s.store.bytes := by
  have hunhold : ∀ (l : List QueueRecord) (u : State),
      (l.foldl (fun t r => t.unhold r.slot) u).store.bytes = u.store.bytes := by
    intro l
    induction l with
    | nil => exact fun _ => rfl
    | cons r l ih => exact fun u => ih (u.unhold r.slot)
  exact hunhold _ s

/-- The part after the port's engine and mailboxes are reset. -/
def State.boxesReset : State := ((s.putEngine p (s.engine p).portReset).resetMailboxes p).state

/-- The part after the port has given up its channels and entries too. -/
def State.portFreed : State := ((s.boxesReset p).closeChannels p).freeEntries p

theorem State.portCleared_state :
    (s.portCleared p).state = ((s.portFreed p).emptyQueue p).state.putOrder p .key := by
  simp only [State.portCleared, State.portFreed, State.boxesReset, Upd.on_parts, Upd.andThen_parts]

theorem State.boxesReset_only :
    (s.putEngine p (s.engine p).portReset).OnlyChanges (s.boxesReset p) [.boxes, .refs, .completions] :=
  State.resetMailboxes_only _ p

theorem State.boxesReset_portFreed : (s.boxesReset p).OnlyChanges (s.portFreed p) [.channels, .seq, .entries] :=
  ((State.closeChannels_only (s.boxesReset p) p).mono (by decide)).seq (State.freeEntries_only _ p) (by decide)

theorem State.portFreed_portCleared :
    (s.portFreed p).OnlyChanges (s.portCleared p).state [.store, .queues, .engines, .orders] := by
  rw [State.portCleared_state]
  exact ((State.emptyQueue_only (s.portFreed p) p).mono (by decide)).seq (State.putOrder_only _ p .key) (by decide)

/-- After its mailboxes, a port reset leaves the mailbox bank and the pending list. -/
theorem State.boxesReset_portCleared :
    (s.boxesReset p).OnlyChanges (s.portCleared p).state
      [.channels, .seq, .entries, .store, .queues, .engines, .orders] :=
  ((s.boxesReset_portFreed p).mono (by decide)).trans ((s.portFreed_portCleared p).mono (by decide))

/-- Before its queue is emptied, a port reset leaves engines, queues and store, but for the engine of the port. -/
theorem State.portFreed_only :
    (s.putEngine p (s.engine p).portReset).OnlyChanges (s.portFreed p)
      [.boxes, .refs, .completions, .channels, .seq, .entries] :=
  ((s.boxesReset_only p).mono (by decide)).trans ((s.boxesReset_portFreed p).mono (by decide))

theorem State.portCleared_mailbox (q : Ref) :
    (s.portCleared p).state.mailbox q = if q.port = p then (s.mailbox q).portReset else s.mailbox q :=
  ((s.boxesReset_portCleared p).mailbox (by decide) q).trans (State.resetMailboxes_mailbox p _ q)

theorem State.portCleared_refs :
    (s.portCleared p).state.sched.refs
      = s.sched.refs.filter (fun q => q.port != p || (s.mailbox q).state.onLine) :=
  Eq.trans ((s.boxesReset_portCleared p).2 .refs (by decide)) (State.resetMailboxes_refs p _)

/-- R72: the completion list of the port is empty. -/
theorem State.portCleared_completions : (s.portCleared p).state.completions p = [] :=
  ((s.boxesReset_portCleared p).completions (by decide) p).trans (State.resetMailboxes_completions p _)

/-- R119: the channels of the port close. -/
theorem State.portCleared_channel (c : ChannelNo) :
    (s.portCleared p).state.channel c = if (s.channel c).owner = some p then .free else s.channel c := by
  have hbefore : (s.boxesReset p).channels = s.channels := (s.boxesReset_only p).2 .channels (by decide)
  have hafter : (s.portCleared p).state.channels = (s.portFreed p).channels :=
    (s.portFreed_portCleared p).2 .channels (by decide)
  have hclose := (s.boxesReset p).closeChannels_channel p c
  simp only [State.ownsChannel, State.channel, hbefore, beq_iff_eq] at hclose
  exact Eq.trans (congrArg (·[c]) hafter) hclose

/-- R134: its entries become free. -/
theorem State.portCleared_entry (i : EntryNo) :
    (s.portCleared p).state.entry i = if (s.entry i).owner = some p then .free else s.entry i := by
  have hboxes : (s.boxesReset p).entries = s.entries := (s.boxesReset_only p).2 .entries (by decide)
  have hbefore : ((s.boxesReset p).closeChannels p).entries = s.entries :=
    Eq.trans (((s.boxesReset p).closeChannels_only p).2 .entries (by decide)) hboxes
  have hafter : (s.portCleared p).state.entries = (s.portFreed p).entries :=
    (s.portFreed_portCleared p).2 .entries (by decide)
  have hfree := ((s.boxesReset p).closeChannels p).freeEntries_entry p i
  simp only [State.entry, hbefore, beq_iff_eq] at hfree
  exact Eq.trans (congrArg (·[i]) hafter) hfree

/-- R103: the inbound entries of its channels go. -/
theorem State.portCleared_seq :
    (s.portCleared p).state.seq
      = { s.seq with inbound := s.seq.inbound.filter (fun e => (s.channel e.channel).owner != some p) } := by
  have hbefore : (s.boxesReset p).seq = s.seq := (s.boxesReset_only p).2 .seq (by decide)
  have hchannels : (s.boxesReset p).channels = s.channels := (s.boxesReset_only p).2 .channels (by decide)
  have hfreed : (s.portFreed p).seq = ((s.boxesReset p).closeChannels p).seq :=
    (((s.boxesReset p).closeChannels p).freeEntries_only p).2 .seq (by decide)
  have hafter : (s.portCleared p).state.seq = (s.portFreed p).seq := (s.portFreed_portCleared p).2 .seq (by decide)
  have hown : ∀ c, (s.boxesReset p).channel c = s.channel c := fun c => congrArg (·[c]) hchannels
  rw [hafter, hfreed, State.closeChannels_seq, hbefore]
  simp only [hown]

/-- R164: the engine takes its reset values; that of another port stays. -/
theorem State.portCleared_engine (q : Port) :
    (s.portCleared p).state.engine q = if q = p then (s.engine p).portReset else s.engine q := by
  have hfreed : ∀ x, (s.portFreed p).engine x = if x = p then (s.engine p).portReset else s.engine x := fun x =>
    ((s.portFreed_only p).engine (by decide) x).trans (s.putEngine_engine p x _)
  obtain ⟨-, hengine, -⟩ := (s.portFreed p).emptyQueue_writes p
  rw [State.portCleared_state, (State.putOrder_views _ p .key).2.1, hengine, hfreed, hfreed, if_pos rfl]
  split
  · rfl
  · rfl

/-- R154: so does the queue. -/
theorem State.portCleared_queue : (s.portCleared p).state.queue p = .initial := by
  obtain ⟨hqueue, -⟩ := (s.portFreed p).emptyQueue_writes p
  rw [State.portCleared_state, (State.putOrder_views _ p .key).1, hqueue, if_pos rfl]

/-- R81: and the transmit order. -/
theorem State.portCleared_order (q : Port) :
    (s.portCleared p).state.order q = if q = p then .key else s.order q := by
  have hrest : s.OnlyChanges ((s.portFreed p).emptyQueue p).state
      [.engines, .boxes, .refs, .completions, .channels, .seq, .entries, .store, .queues] :=
    (((s.putEngine_only p _).mono (by decide)).trans ((s.portFreed_only p).mono (by decide))).trans
      ((State.emptyQueue_only _ p).mono (by decide))
  have horders : ((s.portFreed p).emptyQueue p).state.sched.orders = s.sched.orders := hrest.2 .orders (by decide)
  have hsame : ((s.portFreed p).emptyQueue p).state.order q = s.order q := by simp only [State.order, horders]
  rw [State.portCleared_state, State.putOrder_order, hsame]

/-- R147, R154: each slot loses the holders that the records of the queue were; no byte of a slot is written. -/
theorem State.portCleared_store :
    (s.portCleared p).state.store.bytes = s.store.bytes
      ∧ ∀ i : SlotNo, (s.portCleared p).state.store.holders[i] = s.store.holders[i] - s.refsAt i p := by
  have hstore : (s.portFreed p).store = s.store := (s.portFreed_only p).2 .store (by decide)
  have hqueue : (s.portFreed p).queue p = s.queue p := (s.portFreed_only p).queue (by decide) p
  obtain ⟨-, -, hholders, -⟩ := (s.portFreed p).emptyQueue_writes p
  constructor
  · rw [State.portCleared_state, (State.putOrder_only _ p .key).2 .store (by decide), State.emptyQueue_bytes, hstore]
  · intro i
    have h := hholders i
    rw [State.portCleared_state, (State.putOrder_only _ p .key).2 .store (by decide)]
    rw [hstore] at h
    simpa only [State.refsAt, hqueue] using h

end Sys2Proof.Machine
end

section
/-! O12, from the withdrawal of the vote on: the blocks that act then leave the port (R28, R30, R71), and the local pass
refuses what waits on its channels (R84, R85, R90). -/

namespace Sys2Proof.Machine

/-! ## A port that is left alone -/

/-- R72, R119: after its reset a port has no mailbox that a withdrawal or a local pass completes, and no channel. -/
structure State.PortIdle (s : State) (p : Port) : Prop where
  mailbox : ∀ r : Ref, r.port = p → (s.mailbox r).state = .vacant ∨ (s.mailbox r).state = .retiring
  channel : ∀ c, (s.channel c).owner ≠ some p

/-- Mailboxes, completion list and queue of the port stay, and its engine but for LINE; so do all channels. -/
structure State.LeavesPort (s t : State) (p : Port) : Prop where
  mailbox : ∀ r : Ref, r.port = p → t.mailbox r = s.mailbox r
  completions : t.completions p = s.completions p
  queue : t.queue p = s.queue p
  engine : ∃ b, t.engine p = { s.engine p with flags := { (s.engine p).flags with line := b } }
  channels : t.channels = s.channels

variable {s t u : State} {p : Port} {r w : Ref} {rec : MailRecord}

theorem State.LeavesPort.of_only {l : List Part} (h : s.OnlyChanges t l) (hb : Part.boxes ∉ l)
    (hc : Part.completions ∉ l) (hq : Part.queues ∉ l) (he : Part.engines ∉ l) (hch : Part.channels ∉ l) :
    s.LeavesPort t p where
  mailbox r _ := h.mailbox hb r
  completions := h.completions hc p
  queue := h.queue hq p
  engine := ⟨_, h.engine he p⟩
  channels := h.2 .channels hch

theorem State.LeavesPort.refl (s : State) (p : Port) : s.LeavesPort s p := ⟨fun _ _ => rfl, rfl, rfl, ⟨_, rfl⟩, rfl⟩

theorem State.LeavesPort.trans (h : s.LeavesPort t p) (g : t.LeavesPort u p) : s.LeavesPort u p := by
  obtain ⟨a, ha⟩ := h.engine
  obtain ⟨b, hb⟩ := g.engine
  exact ⟨fun r hr => (g.mailbox r hr).trans (h.mailbox r hr), g.completions.trans h.completions, g.queue.trans h.queue,
    ⟨b, by rw [hb, ha]⟩, g.channels.trans h.channels⟩

theorem State.LeavesPort.channel (h : s.LeavesPort t p) (c : ChannelNo) : t.channel c = s.channel c := by
  simp only [State.channel, h.channels]

theorem State.PortIdle.leaves (h : s.PortIdle p) (g : s.LeavesPort t p) : t.PortIdle p :=
  ⟨fun r hr => by rw [g.mailbox r hr]; exact h.mailbox r hr,
    fun c => by rw [g.channel]; exact h.channel c⟩

theorem State.PortIdle.undecided (h : s.PortIdle p) (hr : r.port = p) : s.Undecided r := by
  rcases h.mailbox r hr with e | e
  · exact .of_state (by rw [e]; decide) (by rw [e]; decide)
  · exact .of_state (by rw [e]; decide) (by rw [e]; decide)

/-- R71: RETIRING and VACANT mailboxes are not withdrawn. -/
theorem State.PortIdle.port_ne_of_withdrawable (h : s.PortIdle p) (hw : s.withdrawable r = true) : r.port ≠ p := by
  intro hr
  rw [State.withdrawable_false] at hw
  · cases hw
  · rcases h.mailbox r hr with e | e <;> rw [e] <;> decide
  · rcases h.mailbox r hr with e | e <;> rw [e] <;> decide

theorem State.raiseLine_leavesPort (s : State) (p : Port) : s.LeavesPort s.raiseLine p where
  mailbox r _ := s.raiseLine_only.mailbox (by decide) r
  completions := s.raiseLine_only.completions (by decide) p
  queue := s.raiseLine_only.queue (by decide) p
  engine := ⟨true, s.raiseLine_engine p⟩
  channels := s.raiseLine_only.2 .channels (by decide)

/-- R66: a completion at another port. -/
theorem State.complete_leavesPort (hr : r.port ≠ p) (o : MailOutcome) (c : Option ExpiryCause) :
    s.LeavesPort (s.complete r o c) p where
  mailbox q hq := by rw [State.complete_mailbox, if_neg (by rintro rfl; exact hr hq)]
  completions := by rw [State.complete_completions, if_neg (Ne.symm hr)]
  queue := (s.complete_only r o c).queue (by decide) p
  engine := ⟨_, by rw [State.complete_engine, if_neg (Ne.symm hr)]⟩
  channels := (s.complete_only r o c).2 .channels (by decide)

/-- R86: a hand-off between two other ports. -/
theorem State.handOff_leavesPort {q : Port} (hr : r.port ≠ p) (hq : q ≠ p) (rec : MailRecord) (i : SlotNo) :
    s.LeavesPort (s.handOff r rec q i) p := by
  have hdelivered := s.localDelivered_only r rec q i
  have hengine : (s.localDelivered r rec q i).engine p = s.engine p := by
    rw [State.localDelivered, State.appendRecord_engine, if_neg (Ne.symm hq)]
    rfl
  have hqueue : (s.handOff r rec q i).queue p = s.queue p := by
    rw [State.handOff_queue, if_neg (Ne.symm hq)]
  have hdone := State.complete_leavesPort (s := s.localDelivered r rec q i) hr .accepted none
  obtain ⟨b, hb⟩ := hdone.engine
  exact ⟨fun x hx => (hdone.mailbox x hx).trans (hdelivered.mailbox (by decide) x),
    hdone.completions.trans (hdelivered.completions (by decide) p), hqueue,
    ⟨b, by rw [State.handOff_eq, hb, hengine]⟩, hdone.channels.trans (hdelivered.2 .channels (by decide))⟩

/-! ## The local pass -/

/-- R85: a hand-off goes to the receiver of the channel. -/
theorem State.decideLocal_receiver (s : State) (r : Ref) (rec : MailRecord) :
    s.decideLocal r rec = s.waitForSpace r
      ∨ (∃ q i, (s.channel rec.channel).receiver = some q ∧ s.decideLocal r rec = s.handOff r rec q i)
      ∨ s.decideLocal r rec = s.complete r .refused none := by
  cases hrecv : (s.channel rec.channel).receiver with
  | none => exact .inr (.inr (State.decideLocal_refused hrecv))
  | some q =>
    by_cases hroom : (s.queue q).full = true ∨ s.freeSlots = []
    · exact .inl (State.decideLocal_waits hrecv hroom)
    · rw [not_or, Bool.not_eq_true, ← State.lowestFree_none] at hroom
      obtain ⟨i, hi⟩ := Option.ne_none_iff_exists'.1 hroom.2
      exact .inr (.inl ⟨q, i, rfl, State.decideLocal_handsOff hrecv hroom.1 ((s.lowestFree_some i).1 hi)⟩)

/-- R84: a local pass finds nothing to do at an idle port. -/
theorem State.PortIdle.passAt (h : s.PortIdle p) (retry : Bool) (r : Ref) :
    s.LeavesPort (State.passAt retry s r) p := by
  rcases State.passAt_decides retry s r with ⟨e, -⟩ | ⟨hl, hst, rec, e⟩
  · rw [e]
    exact .refl s p
  · have hr : r.port ≠ p := fun hp => by
      rcases h.undecided hp with hn | ⟨hq, hw⟩
      · rw [hn] at hl
        cases hl
      · exact (State.decided_state hst).elim hq hw
    rw [e]
    rcases s.decideLocal_receiver r rec with e | ⟨q, i, hrecv, e⟩ | e
    · rw [e]
      have hput := s.putMailbox_only r { s.mailbox r with state := .waitingSpace }
      exact ⟨fun x hx => (State.waitForSpace_leaves (by rintro rfl; exact hr hx)).mailbox,
        hput.completions (by decide) p, hput.queue (by decide) p, ⟨_, hput.engine (by decide) p⟩,
        hput.2 .channels (by decide)⟩
    · rw [e]
      refine State.handOff_leavesPort hr ?_ rec i
      rintro rfl
      exact h.channel _ (Channel.receiver_eq_some hrecv).2
    · rw [e]
      exact State.complete_leavesPort hr _ _

theorem State.PortIdle.localPass (h : s.PortIdle p) (retry : Bool) : s.LeavesPort (s.localPass retry) p :=
  State.localPass_keeps (P := fun u => s.LeavesPort u p) retry (fun _ r hu => hu.trans ((h.leaves hu).passAt retry r))
    (.refl s p)

/-- R84: references that no pass decides keep their places among one another. -/
theorem State.localPass_filter_refs {k : Ref → Bool} (h : ∀ r, k r = true → s.Undecided r) (retry : Bool) :
    (s.localPass retry).sched.refs.filter k = s.sched.refs.filter k := by
  have hpass := State.localPass_keeps (s := s)
    (P := fun u => u.sched.refs.filter k = s.sched.refs.filter k ∧ ∀ r, k r = true → u.mailbox r = s.mailbox r) retry
    (fun u r ⟨hrefs, hm⟩ => by
      refine ⟨?_, fun q hq => (State.passAt_leaves retry ((h q hq).of_mailbox (hm q hq)) r).mailbox.trans (hm q hq)⟩
      rcases State.passAt_decides retry u r with ⟨e, -⟩ | ⟨hl, hst, rec, e⟩
      · rw [e]
        exact hrefs
      · have hk : k r = false := by
          by_contra hk
          rw [Bool.not_eq_false] at hk
          rcases (h r hk).of_mailbox (hm r hk) with hn | ⟨hq, hw⟩
          · rw [hn] at hl
            cases hl
          · exact (State.decided_state hst).elim hq hw
        rw [e]
        rcases (u.decideLocal_self r rec).2 with hsame | hdrop
        · rw [hsame]
          exact hrefs
        · rw [hdrop, List.filter_filter, ← hrefs]
          refine List.filter_congr fun q _ => ?_
          by_cases hq : q = r
          · rw [hq, hk]
            rfl
          · simp [hq]) ⟨rfl, fun _ _ => rfl⟩
  exact hpass.1

/-- R85, R90: a retry refuses a LOCAL mailbox that waits, if its channel has no receiver. -/
theorem State.localPass_refuses (hw : w ∈ s.sched.refs) (hrec : (s.mailbox w).record = some rec)
    (hk : rec.kind = .localHandOff) (hst : (s.mailbox w).state = .waitingSpace)
    (hrecv : (s.channel rec.channel).receiver = none) : s.Completed (s.localPass true) w .refused none := by
  obtain ⟨before, after, hl, hnot⟩ := List.eq_append_cons_of_mem hw
  have hbefore : ∀ (l : List Ref), w ∉ l →
      (l.foldl (State.passAt true) s).mailbox w = s.mailbox w
        ∧ (l.foldl (State.passAt true) s).channels = s.channels := by
    intro l
    induction l using List.reverseRecOn with
    | nil => exact fun _ => ⟨rfl, rfl⟩
    | append_singleton l q ih =>
      intro hq
      simp only [List.mem_append, List.mem_singleton, not_or] at hq
      obtain ⟨hm, hc⟩ := ih hq.1
      rw [List.foldl_append, List.foldl_cons, List.foldl_nil]
      refine ⟨?_, Eq.trans ((State.passAt_only _ true q).2 .channels (by decide)) hc⟩
      rcases State.passAt_decides true (l.foldl (State.passAt true) s) q with ⟨e, -⟩ | ⟨-, -, x, e⟩
      · rw [e, hm]
      · rw [e, State.decideLocal_other _ hq.2, hm]
  obtain ⟨hm, hc⟩ := hbefore before hnot
  generalize hu : before.foldl (State.passAt true) s = u at hm hc
  have hpass : State.passAt true u w = u.complete w .refused none := by
    rw [State.passAt_waiting (by rw [hm]; exact hrec) hk (by rw [hm]; exact hst)]
    refine State.decideLocal_refused ?_
    simpa only [State.channel, hc] using hrecv
  have hdone : s.Completed (u.complete w .refused none) w .refused none :=
    State.complete_completed _ _ (by rw [hm]) (by rw [hm])
  have hrest : ∀ (l : List Ref) (v : State), s.Completed v w .refused none →
      s.Completed (l.foldl (State.passAt true) v) w .refused none := by
    intro l
    induction l with
    | nil => exact fun _ hv => hv
    | cons q l ih =>
      intro v hv
      exact ih _ (hv.leaves (State.passAt_leaves true (.of_state (by rw [hv.1]; decide) (by rw [hv.1]; decide)) q))
  rw [State.localPass, hl, List.foldl_append, List.foldl_cons, hu, hpass]
  exact hrest after _ hdone

/-! ## The withdrawal of the vote -/

/-- R71: withdrawals leave an idle port. -/
theorem State.PortIdle.withdrawAll (h : s.PortIdle p) : s.LeavesPort s.withdrawAll.state p :=
  Upd.each_inv (fun t => s.LeavesPort t p) _ State.withdrawOne
    (fun r _ t ht => by
      unfold State.withdrawOne
      split
      next hw => exact ht.trans (State.complete_leavesPort ((h.leaves ht).port_ne_of_withdrawable hw) _ _)
      next => exact ht) (Upd.start s) (.refl s p)

/-- R71: the withdrawn references leave the pending list. -/
theorem Upd.each_withdrawOne_refs (l : List Ref) (u : Upd) :
    (u.each l State.withdrawOne).state.sched.refs
      = u.state.sched.refs.filter (fun r => !(u.state.withdrawable r && decide (r ∈ l))) := by
  induction l generalizing u with
  | nil => simp
  | cons q l ih =>
    have hother : ∀ r, r ≠ q → (State.withdrawOne q u.state).state.withdrawable r = u.state.withdrawable r := fun r hr =>
      State.withdrawable_congr (State.withdrawOne_leaves (.inr (Ne.symm hr))).mailbox
    rw [Upd.each_cons, ih, (Upd.andThen_parts _ _).1]
    by_cases hw : u.state.withdrawable q = true
    · have hone : State.withdrawOne q u.state = u.state.completeUpd q .withdrawn none := if_pos hw
      have hrefs : (State.withdrawOne q u.state).state.sched.refs = u.state.sched.refs.filter (· != q) := by
        rw [hone]
        exact State.complete_refs _ _ _ _
      rw [hrefs, List.filter_filter]
      refine List.filter_congr fun r _ => ?_
      by_cases hr : r = q
      · simp [hr, hw]
      · simp [hr, hother r hr]
    · have hone : State.withdrawOne q u.state = .start u.state := if_neg hw
      rw [hone]
      refine List.filter_congr fun r _ => ?_
      by_cases hr : r = q
      · simp [hr, hw]
      · simp [hr]

theorem State.withdrawAll_refs (s : State) :
    s.withdrawAll.state.sched.refs = s.sched.refs.filter (fun r => !s.withdrawable r) := by
  rw [State.withdrawAll_eq, Upd.each_withdrawOne_refs]
  refine List.filter_congr fun r hr => ?_
  have hmem : r ∈ s.sched.refs := hr
  simp [hmem]

/-- R66: a withdrawal leaves the record. -/
theorem State.withdrawAll_record (s : State) (r : Ref) :
    (s.withdrawAll.state.mailbox r).record = (s.mailbox r).record :=
  Upd.each_keeps (fun t => (t.mailbox r).record) _ State.withdrawOne
    (fun q _ t => by
      unfold State.withdrawOne
      split
      · simp only [State.completeUpd, State.complete_mailbox]
        split
        next hq => rw [hq]
        next => rfl
      · rfl) (Upd.start s)

/-- Holder counts and bytes of the slots stay. -/
def State.SameSlots (s t : State) : Prop := t.store.holders = s.store.holders ∧ t.store.bytes = s.store.bytes

theorem State.SameSlots.of_store (h : t.store = s.store) : s.SameSlots t := by
  rw [State.SameSlots, h]
  exact ⟨rfl, rfl⟩

theorem State.SameSlots.trans (h : s.SameSlots t) (g : t.SameSlots u) : s.SameSlots u :=
  ⟨g.1.trans h.1, g.2.trans h.2⟩

theorem State.endReceptionSlot_sameSlots (s : State) : s.SameSlots s.endReceptionSlot.state := by
  rw [State.SameSlots, s.endReceptionSlot_eq.2]
  exact ⟨rfl, rfl⟩

/-- R30: entry to OFFLINE is the end of reception, then the withdrawals, then the clean-round count. -/
theorem State.wentOffline_withdrawAll (s : State) :
    ∃ u, s.OnlyChanges u [.lineState, .store, .line] ∧ s.SameSlots u
      ∧ u.withdrawAll.state.OnlyChanges s.wentOffline [.fault] :=
  ⟨(s.putLineState .offline).lineOffline.state,
    ((s.putLineState_only .offline).mono (by decide)).seq (State.lineOffline_only _) (by decide),
    (s.putLineState .offline).endReceptionSlot_sameSlots, State.putFault_only _ _⟩

theorem State.abandonReception_sameSlots (s : State) : s.SameSlots s.abandonReception.state := by
  unfold State.abandonReception
  split
  · split
    · exact s.endReceptionSlot_sameSlots
    · exact .of_store rfl
  · exact .of_store rfl

/-- R25 to R30: a move of the line state is the entry to OFFLINE, or leaves every port. -/
theorem State.moveLineState_cases (s : State) (l : LineState) :
    (s.member.lineState ≠ .offline ∧ l = .offline ∧ (s.moveLineState l).state = s.wentOffline)
      ∨ (s.member.lineState = .offline ∨ l ≠ .offline)
        ∧ s.OnlyChanges (s.moveLineState l).state [.lineState, .store, .line] ∧ s.SameSlots (s.moveLineState l).state := by
  by_cases hl : l = s.member.lineState
  · have hstay : s.moveLineState l = .start s := by simp [State.moveLineState, hl]
    rw [hstay]
    refine .inr ⟨?_, .refl s _, .of_store rfl⟩
    rw [hl]
    exact Classical.em _
  · have hb : (l == s.member.lineState) = false := by simpa using hl
    cases l with
    | offline =>
      refine .inl ⟨Ne.symm hl, rfl, ?_⟩
      rw [State.moveLineState_offline s (Ne.symm hl)]
      rfl
    | syncing =>
      have e : s.moveLineState .syncing = .start (s.putLineState .syncing).startSyncSearch := by
        simp [State.moveLineState, hb]
      rw [e]
      exact .inr ⟨.inr (by decide),
        ((s.putLineState_only _).mono (by decide)).seq (State.putLine_only _ _) (by decide), .of_store rfl⟩
    | leaving =>
      have e : s.moveLineState .leaving = (s.putLineState .leaving).abandonReception := by
        simp [State.moveLineState, hb]
      rw [e]
      exact .inr ⟨.inr (by decide),
        ((s.putLineState_only _).mono (by decide)).seq (State.abandonReception_only _) (by decide),
        (s.putLineState .leaving).abandonReception_sameSlots⟩
    | active =>
      have e : s.moveLineState .active = .start (s.putLineState .active) := by
        simp [State.moveLineState, hb]
      rw [e]
      exact .inr ⟨.inr (by decide), (s.putLineState_only _).mono (by decide), .of_store rfl⟩

/-- R71: at a move of the line state references leave only at entry to OFFLINE, and records and slots stay. -/
theorem State.moveLineState_refs (s : State) (l : LineState) :
    (s.moveLineState l).state.sched.refs
      = s.sched.refs.filter (fun r => l != .offline || s.member.lineState == .offline || !s.withdrawable r) := by
  rcases s.moveLineState_cases l with ⟨hon, hl, e⟩ | ⟨hstay, hf, -⟩
  · obtain ⟨u, hu, -, hv⟩ := s.wentOffline_withdrawAll
    have hrefs : u.sched.refs = s.sched.refs := hu.2 .refs (by decide)
    have hafter : s.wentOffline.sched.refs = u.withdrawAll.state.sched.refs := hv.2 .refs (by decide)
    rw [e, hafter, State.withdrawAll_refs, hrefs]
    refine List.filter_congr fun r _ => ?_
    rw [State.withdrawable_congr (hu.mailbox (by decide) r)]
    simp [hon, hl]
  · have hrefs : (s.moveLineState l).state.sched.refs = s.sched.refs := hf.2 .refs (by decide)
    rw [hrefs]
    refine (List.filter_eq_self.2 fun r _ => ?_).symm
    rcases hstay with h | h
    · simp [h]
    · simp [h]

theorem State.moveLineState_record (s : State) (l : LineState) (r : Ref) :
    ((s.moveLineState l).state.mailbox r).record = (s.mailbox r).record := by
  rcases s.moveLineState_cases l with ⟨-, -, e⟩ | ⟨-, hf, -⟩
  · obtain ⟨u, hu, -, hv⟩ := s.wentOffline_withdrawAll
    rw [e, hv.mailbox (by decide), State.withdrawAll_record, hu.mailbox (by decide)]
  · rw [hf.mailbox (by decide)]

theorem State.moveLineState_sameSlots (s : State) (l : LineState) : s.SameSlots (s.moveLineState l).state := by
  rcases s.moveLineState_cases l with ⟨-, -, e⟩ | ⟨-, -, h⟩
  · obtain ⟨u, -, hu, hv⟩ := s.wentOffline_withdrawAll
    have hall : u.withdrawAll.state.store = u.store := u.withdrawAll_only.2 .store (by decide)
    have hafter : s.wentOffline.store = u.withdrawAll.state.store := hv.2 .store (by decide)
    rw [e]
    exact hu.trans (.of_store (hafter.trans hall))
  · exact h

theorem State.PortIdle.moveLineState (h : s.PortIdle p) (l : LineState) : s.LeavesPort (s.moveLineState l).state p := by
  rcases s.moveLineState_cases l with ⟨-, -, e⟩ | ⟨-, hf, -⟩
  · obtain ⟨u, hu, -, hv⟩ := s.wentOffline_withdrawAll
    have hleft : s.LeavesPort u p := .of_only hu (by decide) (by decide) (by decide) (by decide) (by decide)
    rw [e]
    exact (hleft.trans (h.leaves hleft).withdrawAll).trans
      (.of_only hv (by decide) (by decide) (by decide) (by decide) (by decide))
  · exact .of_only hf (by decide) (by decide) (by decide) (by decide) (by decide)

/-- R71: a move of the line state leaves a mailbox that is not withdrawable. -/
theorem State.moveLineState_mailbox (hw : s.withdrawable r = false) (l : LineState) :
    (s.moveLineState l).state.mailbox r = s.mailbox r := by
  rcases s.moveLineState_cases l with ⟨-, -, e⟩ | ⟨-, hf, -⟩
  · rw [e, (State.wentOffline_leaves hw).mailbox]
  · exact hf.mailbox (by decide) r

variable (s) (v : Vector Vote 3)

/-- R23, R31: new votes move the line state; then LINE is announced. -/
theorem State.applyVotes_state :
    (s.applyVotes v).state
      = State.announceLine s ((s.putVotes v).moveLineState (s.applyVotes v).state.member.lineState).state := by
  rw [State.applyVotes_member]
  rfl

/-- Of what new votes bring, LINE is the last, and an engine's own. -/
theorem State.applyVotes_only_engines :
    ((s.putVotes v).moveLineState (s.applyVotes v).state.member.lineState).state.OnlyChanges (s.applyVotes v).state
      [.engines] := by
  have h := State.announceLine_only
    ((s.putVotes v).moveLineState (s.applyVotes v).state.member.lineState).state s
  rwa [← s.applyVotes_state v] at h

theorem State.applyVotes_refs :
    (s.applyVotes v).state.sched.refs
      = s.sched.refs.filter (fun r => (s.applyVotes v).state.member.lineState != .offline
          || s.member.lineState == .offline || !s.withdrawable r) :=
  Eq.trans ((s.applyVotes_only_engines v).2 .refs (by decide)) (State.moveLineState_refs _ _)

theorem State.applyVotes_record (r : Ref) : ((s.applyVotes v).state.mailbox r).record = (s.mailbox r).record :=
  (congrArg Mailbox.record ((s.applyVotes_only_engines v).mailbox (by decide) r)).trans (State.moveLineState_record _ _ r)

theorem State.applyVotes_sameSlots : s.SameSlots (s.applyVotes v).state :=
  (State.moveLineState_sameSlots (s.putVotes v) _).trans (.of_store ((s.applyVotes_only_engines v).2 .store (by decide)))

variable {s}

theorem State.applyVotes_mailbox (hw : s.withdrawable r = false) : (s.applyVotes v).state.mailbox r = s.mailbox r :=
  ((s.applyVotes_only_engines v).mailbox (by decide) r).trans (State.moveLineState_mailbox (s := s.putVotes v) hw _)

theorem State.PortIdle.applyVotes (h : s.PortIdle p) : s.LeavesPort (s.applyVotes v).state p := by
  have hidle : (s.putVotes v).PortIdle p := ⟨h.mailbox, h.channel⟩
  have hmove : s.LeavesPort ((s.putVotes v).moveLineState (s.applyVotes v).state.member.lineState).state p := by
    obtain ⟨hm, hc, hq, he, hch⟩ := hidle.moveLineState (s.applyVotes v).state.member.lineState
    exact ⟨hm, hc, hq, he, hch⟩
  rw [State.applyVotes_state]
  refine hmove.trans ?_
  unfold State.announceLine
  split
  · exact .refl _ p
  · exact State.raiseLine_leavesPort _ p

end Sys2Proof.Machine
end

section
/-! O12: a port reset (R164) by its two causes, the falling edge of PRSTn and RESET_PORT (R165), at every block. -/

namespace Sys2Proof.Machine

/-! ## The part after a port reset -/

variable (s : State) (p : Port)

/-- The part after the vote of the port is withdrawn, before the local pass. -/
def State.voteCleared : State :=
  ((s.portCleared p).state.applyVotes ((s.portCleared p).state.member.votes.set p .none)).state

theorem State.portReset_localPass : s.portReset p = (s.voteCleared p).localPass true := by
  rw [State.portReset_eq, (Upd.andThen_parts _ _).1]
  rfl

theorem State.portCleared_member : (s.portCleared p).state.member = s.member :=
  (s.portCleared_only p).member (by decide) (by decide) (by decide)

theorem State.voteCleared_member :
    (s.voteCleared p).member
      = { s.member with
          votes := s.member.votes.set p .none,
          lineState := nextLineState s.member.lineState (votesEmpty (s.member.votes.set p .none)) s.inFlight } := by
  have hline : (s.portCleared p).state.line = s.line := (s.portCleared_only p).line (by decide)
  rw [State.voteCleared, State.applyVotes_member, State.portCleared_member, State.inFlight, hline]
  rfl

theorem State.portReset_member : (s.portReset p).member = (s.voteCleared p).member := by
  rw [State.portReset_localPass]
  exact (State.localPass_only _ true).member (by decide) (by decide) (by decide)

/-- R37: the vote of the port is NONE. -/
theorem State.portReset_vote (q : Port) : (s.portReset p).vote q = if q = p then .none else s.vote q := by
  rw [State.vote, State.portReset_member, State.voteCleared_member]
  simp only [State.vote, Fin.getElem_fin, Vector.getElem_set, eq_comm (a := q)]
  simp only [Fin.val_inj]

/-- R28: the line state by the votes that are left. -/
theorem State.portReset_lineState {empty : Bool} (h : empty = true ↔ ∀ q, q ≠ p → s.vote q = .none) :
    (s.portReset p).member.lineState = nextLineState s.member.lineState empty s.line.own.isSome := by
  have hvotes : (s.portReset p).member.votes = s.member.votes.set p .none := by
    rw [State.portReset_member, State.voteCleared_member]
  have he : votesEmpty (s.member.votes.set p .none) = empty := by
    rw [Bool.eq_iff_iff, h, ← hvotes, votesEmpty_iff]
    refine ⟨fun hall q hq => ?_, fun hothers q => ?_⟩
    · have := hall q
      rwa [← State.vote, State.portReset_vote, if_neg hq] at this
    · rw [← State.vote, State.portReset_vote]
      split
      · rfl
      next hq => exact hothers q hq
  rw [State.portReset_member, State.voteCleared_member, he]
  rfl

/-! ## The port itself -/

theorem State.portCleared_idle : (s.portCleared p).state.PortIdle p where
  mailbox r hr := by
    rw [State.portCleared_mailbox, if_pos hr, Mailbox.portReset_state]
    split
    · exact .inr rfl
    · exact .inl rfl
  channel c := by
    rw [State.portCleared_channel]
    split
    · exact Option.some_ne_none p |>.symm
    next h => exact h

theorem State.portCleared_voteCleared : (s.portCleared p).state.LeavesPort (s.voteCleared p) p :=
  (s.portCleared_idle p).applyVotes _

theorem State.voteCleared_idle : (s.voteCleared p).PortIdle p :=
  (s.portCleared_idle p).leaves (s.portCleared_voteCleared p)

/-- What follows the reset of its own blocks leaves the port. -/
theorem State.portCleared_portReset : (s.portCleared p).state.LeavesPort (s.portReset p) p := by
  rw [State.portReset_localPass]
  exact (s.portCleared_voteCleared p).trans ((s.voteCleared_idle p).localPass true)

theorem State.portReset_channel (c : ChannelNo) :
    (s.portReset p).channel c = if (s.channel c).owner = some p then Channel.free else s.channel c := by
  rw [(s.portCleared_portReset p).channel, State.portCleared_channel]

/-- R164: the engine after a port reset: its reset values, and LINE as the move of the line state leaves it. -/
theorem State.portReset_engine :
    (s.portReset p).engine p
      = { (s.engine p).portReset with
          flags := { Attention.none with line := ((s.portReset p).engine p).flags.line } } := by
  obtain ⟨b, hb⟩ := (s.portCleared_portReset p).engine
  rw [State.portCleared_engine, if_pos rfl] at hb
  rw [hb]
  rfl

theorem State.voteCleared_lineFollows :
    (s.portCleared p).state.LineFollows (s.voteCleared p)
      ((s.voteCleared p).member.lineState ≠ s.member.lineState ∨ (s.voteCleared p).mode ≠ s.mode) := by
  have h : (s.portCleared p).state.LineFollows (s.voteCleared p)
      ((s.voteCleared p).member.lineState ≠ (s.portCleared p).state.member.lineState
        ∨ (s.voteCleared p).mode ≠ (s.portCleared p).state.mode) :=
    (s.portCleared p).state.applyVotes_lineFollows ((s.portCleared p).state.member.votes.set p .none)
  have hmode : (s.portCleared p).state.mode = s.mode := by rw [State.mode, State.portCleared_member]; rfl
  rw [hmode, State.portCleared_member] at h
  exact h

/-- R31: LINE is set exactly if line state or mode changed. -/
theorem State.portReset_line :
    ((s.portReset p).engine p).flags.line = true
      ↔ (s.portReset p).member.lineState ≠ s.member.lineState ∨ (s.portReset p).mode ≠ s.mode := by
  have hpass : ((s.portReset p).engine p).flags.line = ((s.voteCleared p).engine p).flags.line := by
    rw [State.portReset_localPass]
    exact (State.localPass_onlyOtherFlags true (s.voteCleared p)).line p
  have hbefore : ((s.portCleared p).state.engine p).flags.line = false := by
    rw [State.portCleared_engine, if_pos rfl]
    rfl
  have hmode : (s.portReset p).mode = (s.voteCleared p).mode := by rw [State.mode, State.portReset_member]; rfl
  obtain ⟨hset, hkept⟩ := s.voteCleared_lineFollows p p
  rw [hpass, hmode, State.portReset_member]
  rw [hbefore] at hkept
  refine ⟨fun hline => ?_, hset⟩
  by_contra hn
  rw [hkept hn] at hline
  cases hline

/-! ## The pending list -/

theorem State.voteCleared_refs :
    (s.voteCleared p).sched.refs
      = s.sched.refs.filter (fun r => (r.port != p || (s.mailbox r).state.onLine)
          && ((s.portReset p).member.lineState != .offline || s.member.lineState == .offline
              || !(s.portCleared p).state.withdrawable r)) := by
  rw [State.portReset_member, State.voteCleared, State.applyVotes_refs, State.portCleared_refs, State.portCleared_member,
    List.filter_filter]
  exact List.filter_congr fun r _ => Bool.and_comm _ _

theorem State.voteCleared_isLocal {r : Ref} (hr : r.port ≠ p) : (s.voteCleared p).isLocal r = s.isLocal r := by
  refine State.isLocal_congr ?_
  rw [State.voteCleared, State.applyVotes_record, State.portCleared_mailbox, if_neg hr]

theorem State.portCleared_withdrawable (r : Ref) :
    (s.portCleared p).state.withdrawable r = (r.port != p && s.withdrawable r) := by
  by_cases hr : r.port = p
  · have hn : (s.portCleared p).state.withdrawable r = false := by
      by_contra hw
      exact (s.portCleared_idle p).port_ne_of_withdrawable (by simpa using hw) hr
    simp [hn, hr]
  · have hm : (s.portCleared p).state.mailbox r = s.mailbox r := by rw [State.portCleared_mailbox, if_neg hr]
    rw [State.withdrawable_congr hm]
    simp [hr]

/-- R84: a mailbox of the port, and one that is not LOCAL, is decided by no local pass. -/
theorem State.voteCleared_undecided {r : Ref} (h : r.port ≠ p → s.isLocal r = false) : (s.voteCleared p).Undecided r := by
  by_cases hr : r.port = p
  · exact (s.voteCleared_idle p).undecided hr
  · exact .inl ((s.voteCleared_isLocal p hr).trans (h hr))

/-- R72, R75: of the port's references those stay whose frame is on the line. -/
theorem State.portReset_ref {r : Ref} (hr : r ∈ (s.portReset p).sched.refs) (hp : r.port = p) :
    (s.mailbox r).state = .sending ∨ (s.mailbox r).state = .retiring := by
  have hu : (s.voteCleared p).Undecided r := s.voteCleared_undecided p fun h => absurd hp h
  have hmem : r ∈ (s.voteCleared p).sched.refs := by
    by_contra hn
    rw [State.portReset_localPass] at hr
    exact (State.localPass_leaves true hu).refs hn hr
  rw [State.voteCleared_refs, List.mem_filter] at hmem
  have hon : (s.mailbox r).state.onLine = true := by
    simpa [hp] using And.left ((Bool.and_eq_true _ _).mp hmem.2)
  revert hon
  cases (s.mailbox r).state <;> simp [MailState.onLine]

/-- R71, R72: the references of mailboxes that are not LOCAL: those of the port that wait, and those withdrawn, leave. -/
theorem State.portReset_refs :
    (s.portReset p).sched.refs.filter (fun r => !s.isLocal r)
      = s.sched.refs.filter (fun r => !s.isLocal r
          && (r.port != p || (s.mailbox r).state == .sending || (s.mailbox r).state == .retiring)
          && ((s.portReset p).member.lineState != .offline || s.member.lineState == .offline || !s.withdrawable r)) := by
  have hpass := State.localPass_filter_refs (s := s.voteCleared p) (k := fun r => !s.isLocal r)
    (fun r hr => s.voteCleared_undecided p fun _ => by simpa using hr) true
  have hon : ∀ st : MailState, (st == .sending || st == .retiring) = st.onLine := by
    intro st
    cases st <;> rfl
  rw [← State.portReset_localPass] at hpass
  rw [hpass, State.voteCleared_refs, List.filter_filter]
  refine List.filter_congr fun r _ => ?_
  rw [State.portCleared_withdrawable, Bool.or_assoc (r.port != p), hon, Bool.and_assoc]
  by_cases hp : r.port = p
  · subst hp
    cases hline : (s.mailbox r).state.onLine
    · simp
    · have hnw : s.withdrawable r = false := by
        refine State.withdrawable_false ?_ ?_ <;> (intro e; rw [e] at hline; cases hline)
      simp [hnw]
  · have hne : (r.port != p) = true := by simpa using hp
    simp [hne]

/-! ## Other ports -/

variable {s p}

/-- R90: a LOCAL mailbox of another port that waits on a channel of the port is refused. -/
theorem State.portReset_refuses {w : Ref} {rec : MailRecord} (hw : w ∈ s.sched.refs) (hp : w.port ≠ p)
    (hst : (s.mailbox w).state = .waitingSpace) (hrec : (s.mailbox w).record = some rec)
    (hk : rec.kind = .localHandOff) (how : (s.channel rec.channel).owner = some p) :
    s.Completed (s.portReset p) w .refused none := by
  have hcleared : (s.portCleared p).state.mailbox w = s.mailbox w := by rw [State.portCleared_mailbox, if_neg hp]
  have hnw : s.withdrawable w = false := State.withdrawable_false (by rw [hst]; decide) (by rw [hst]; decide)
  have hm : (s.voteCleared p).mailbox w = s.mailbox w :=
    (State.applyVotes_mailbox _ ((State.withdrawable_congr hcleared).trans hnw)).trans hcleared
  have hmem : w ∈ (s.voteCleared p).sched.refs := by
    rw [State.voteCleared_refs, List.mem_filter]
    exact ⟨hw, by simp [State.portCleared_withdrawable, hp, hnw]⟩
  have hchannel : (s.voteCleared p).channel rec.channel = Channel.free := by
    rw [(s.portCleared_voteCleared p).channel, State.portCleared_channel, if_pos how]
  have hdone := State.localPass_refuses hmem (by rw [hm]; exact hrec) hk (by rw [hm]; exact hst)
    (by rw [hchannel]; rfl)
  rw [← State.portReset_localPass] at hdone
  simpa only [State.Completed, hm] using hdone

/-- R147, R154: where no other port has a LOCAL mailbox pending, the store loses the holders of the port's records. -/
theorem State.portReset_store (h : ∀ r ∈ s.sched.refs, r.port ≠ p → s.isLocal r = false) :
    (s.portReset p).store.bytes = s.store.bytes
      ∧ ∀ i : SlotNo, (s.portReset p).store.holders[i] = s.store.holders[i] - s.refsAt i p := by
  have hstill : s.portReset p = s.voteCleared p := by
    rw [State.portReset_localPass]
    refine State.foldl_passAt_fixed fun r hr => State.Undecided.passAt (s.voteCleared_undecided p fun hp => ?_) true
    rw [State.voteCleared_refs] at hr
    exact h r (List.mem_of_mem_filter hr) hp
  obtain ⟨hholders, hbytes⟩ : (s.portCleared p).state.SameSlots (s.voteCleared p) := State.applyVotes_sameSlots _ _
  obtain ⟨hclearedBytes, hclearedHolders⟩ := s.portCleared_store p
  rw [hstill]
  refine ⟨hbytes.trans hclearedBytes, fun i => ?_⟩
  rw [hholders, hclearedHolders]

/-- R164: the parts in which only the port's own blocks act. -/
theorem State.portCleared_portReset_only :
    (s.portCleared p).state.OnlyChanges (s.portReset p) (.votes :: .queues :: moveParts) := by
  rw [State.portReset_localPass]
  exact ((State.applyVotes_only _ _).mono (by decide)).seq (State.localPass_only _ true) (by decide)

/-! ## The two causes -/

/-- A report of the last result that stands, under OK, changes nothing. -/
theorem State.report_ok_self (h : (s.engine p).lastResult = .ok) : s.report p .ok = s := by
  have he : { s.engine p with
      lastResult := Result.ok,
      flags := { (s.engine p).flags with error := (s.engine p).flags.error || Result.ok != .ok } } = s.engine p := by
    rw [← h]
    simp
  have hput : s.putEngine p (s.engine p) = s := by
    simp only [State.putEngine, State.engine, Fin.getElem_fin, Vector.set_getElem_self]
  exact (congrArg (s.putEngine p) he).trans hput

theorem resetPortBody_cons (b : Byte) (rest : List Byte) : resetPortBody p (b :: rest) s = (s.portReset p, .ok) := rfl

/-- R164, R165: either cause is a port reset of a part that differs from the one before at pins, transaction and transaction
pin alone. -/
theorem exec_portReset {i : Instr} {prst : Bool}
    (h : (i = .portReset p ∧ (s.engine p).prstLow = false ∧ prst = true)
      ∨ (∃ b rest, i = .resetPort p (b :: rest)) ∧ s.InTransaction p ∧ prst = (s.engine p).prstLow) :
    ∃ u, exec i s = .next (u.portReset p) ∧ s.OnlyChanges u [.engines, .queues]
      ∧ (u.queue p).records = (s.queue p).records ∧ (u.engine p).prstLow = prst := by
  rcases h with ⟨rfl, hlow, rfl⟩ | ⟨⟨b, rest, rfl⟩, hin, rfl⟩
  · refine ⟨s.setPrst p true, ?_, (s.putEngine_only p _).mono (by decide), rfl, ?_⟩
    · have e : exec (.portReset p) s = execPortReset p s := rfl
      rw [e, execPortReset, hlow]
      rfl
    · rw [State.setPrst, State.putEngine_engine, if_pos rfl]
  · refine ⟨s.closeTransaction p, ?_, s.closeTransaction_only p, ?_, ?_⟩
    · have hok : (((s.closeTransaction p).portReset p).engine p).lastResult = .ok := by
        rw [State.portReset_engine]
        rfl
      have htaken := s.takeCommand_eq p .resetPort (resetPortBody p (b :: rest)) hin
      simp only [resetPortBody_cons] at htaken
      rw [State.report_ok_self hok] at htaken
      rw [← htaken]
      rfl
    · rw [State.closeTransaction_queue, if_pos rfl]
    · rw [State.closeTransaction_engine, if_pos rfl]

/-- Settles O12: each block of the part after a port reset, of a part that differs at the port's pins alone. -/
theorem portResetClearsThePort : Obligations.PortResetClearsThePort := by
  intro s p i prst hcause
  obtain ⟨u, hexec, hf, hrecords, hprst⟩ := exec_portReset hcause
  have hmember : u.member = s.member := hf.member (by decide) (by decide) (by decide)
  have hm : ∀ r, u.mailbox r = s.mailbox r := hf.mailbox (by decide)
  have hrefs : u.sched.refs = s.sched.refs := hf.2 .refs (by decide)
  have hch : ∀ c, u.channel c = s.channel c := fun c => by
    have e : u.channels = s.channels := hf.2 .channels (by decide)
    simp only [State.channel, e]
  have hentry : ∀ e, u.entry e = s.entry e := fun i => by
    have e : u.entries = s.entries := hf.2 .entries (by decide)
    simp only [State.entry, e]
  have hline : u.line = s.line := hf.line (by decide)
  have hstore : u.store = s.store := hf.2 .store (by decide)
  have hseq : u.seq = s.seq := hf.2 .seq (by decide)
  have horders : u.sched.orders = s.sched.orders := hf.2 .orders (by decide)
  have hmode : u.mode = s.mode := by simp only [State.mode, hmember]
  have hvote : ∀ q, u.vote q = s.vote q := fun q => by simp only [State.vote, hmember]
  have hlocal : ∀ r, u.isLocal r = s.isLocal r := fun r => State.isLocal_congr (by rw [hm])
  have hwithdraw : ∀ r, u.withdrawable r = s.withdrawable r := fun r => State.withdrawable_congr (hm r)
  have hengine := u.portReset_engine p
  have hleft := u.portCleared_portReset p
  have honly := State.portCleared_portReset_only (s := u) (p := p)
  have hseqAfter : (u.portReset p).seq = (u.portCleared p).state.seq := honly.2 .seq (by decide)
  have horder : ∀ q, (u.portReset p).order q = if q = p then .key else s.order q := fun q => by
    have hsame : (u.portReset p).sched.orders = (u.portCleared p).state.sched.orders := honly.2 .orders (by decide)
    have hcleared := u.portCleared_order p q
    simp only [State.order, hsame, horders] at hcleared ⊢
    exact hcleared
  refine ⟨_, hexec, by rw [hengine]; rfl, by rw [hengine]; rfl, by rw [hengine]; rfl, by rw [hengine]; exact hprst,
    by rw [hengine], ?_, by rw [State.portReset_vote, if_pos rfl],
    fun q hq => by rw [State.portReset_vote, if_neg hq, hvote], fun k => ?_, ?_, fun c => ?_, fun e => ?_, ?_, ?_,
    fun hnone => ?_, fun hsome hst => ?_, fun r hr hp => ?_, ?_, fun w rec hw hp hst hrec hk how => ?_, fun h => ?_, ?_,
    by rw [horder, if_pos rfl], fun q hq => by rw [horder, if_neg hq], ?_⟩
  · rw [State.portReset_line, hmember, hmode]
  · rw [hleft.mailbox _ rfl, State.portCleared_mailbox, if_pos rfl, hm]
    rfl
  · rw [hleft.completions, State.portCleared_completions]
  · rw [State.portReset_channel, hch]
  · have hsame : (u.portReset p).entries = (u.portCleared p).state.entries := honly.2 .entries (by decide)
    have hcleared := u.portCleared_entry p e
    rw [hentry] at hcleared
    rw [← hcleared, State.entry, hsame]
    rfl
  · rw [hseqAfter, State.portCleared_seq, hseq]
  · rw [hseqAfter, State.portCleared_seq, hseq]
    simp only [hch]
  · rw [State.portReset_lineState u p (empty := true) (by simpa only [hvote, true_iff] using hnone), hmember, hline]
    cases s.member.lineState <;> cases s.line.own <;> rfl
  · have hne : ¬ ∀ q, q ≠ p → s.vote q = .none := fun h => by
      obtain ⟨q, hq, hv⟩ := hsome
      exact hv (h q hq)
    rw [State.portReset_lineState u p (empty := false) (by simpa only [hvote, Bool.false_eq_true, false_iff] using hne),
      hmember]
    rcases hst with e | e <;> rw [e] <;> rfl
  · rw [← hm]
    exact u.portReset_ref p hr hp
  · have h := u.portReset_refs p
    simpa only [hlocal, hm, hrefs, hmember, hwithdraw] using h
  · have hdone := State.portReset_refuses (s := u) (by rw [hrefs]; exact hw) hp (by rw [hm]; exact hst)
      (by rw [hm]; exact hrec) hk (by rw [hch]; exact how)
    simpa only [State.Completed, hm] using hdone
  · obtain ⟨hbytes, hholders⟩ := State.portReset_store (s := u) (p := p)
      (fun r hr hp => by rw [hlocal]; exact h r (by rw [← hrefs]; exact hr) hp)
    simp only [State.refsAt, hrecords, hstore] at hbytes hholders
    exact ⟨hbytes, hholders⟩
  · rw [hleft.queue, State.portCleared_queue]
  · exact (hf.mono (by decide)).trans (u.portReset_only p)

end Sys2Proof.Machine
end

section
/-! O3, O4, O5, O6, O7, O8: a transaction from its begin to its release (R155 to R158): what holds a port back, commands cut
short, the codes in byte 0, and the snapshot of a read command. -/

namespace Sys2Proof.Machine

variable {s : State} {p : Port}

/-! ## The begin of a transaction -/

/-- R155: CSn falls with PRSTn and RESET high. -/
theorem State.beginTransaction_begins (hcs : (s.engine p).csLow = false) (hprst : (s.engine p).prstLow = false)
    (hreset : s.inReset = false) :
    s.beginTransaction p
      = s.putEngine p { s.engine p with
          csLow := true,
          txn := some { miso0 := (s.engine p).lastResult.code, miso1 := (s.engine p).flags.toByte,
                        received := [], snapshot := none } } := by
  simp [State.beginTransaction, hcs, hprst, hreset]

/-- R155, R164, R167: where CSn is low already, or PRSTn or RESET is low, at most the level of CSn changes. -/
theorem State.beginTransaction_held
    (h : (s.engine p).prstLow = true ∨ s.inReset = true ∨ (s.engine p).csLow = true) :
    (s.beginTransaction p).engine p = { s.engine p with csLow := true }
      ∧ ∀ q, q ≠ p → (s.beginTransaction p).engine q = s.engine q := by
  by_cases hcs : (s.engine p).csLow = true
  · have hstay : s.beginTransaction p = s := by simp [State.beginTransaction, hcs]
    rw [hstay]
    exact ⟨by rw [← hcs], fun _ _ => rfl⟩
  · have hlow : s.beginTransaction p = s.setCs p true := by
      rcases h with h | h | h
      · simp [State.beginTransaction, hcs, h]
      · simp [State.beginTransaction, hcs, h]
      · exact absurd h hcs
    rw [hlow]
    exact ⟨by simp [State.setCs], fun q hq => by simp [State.setCs, hq]⟩

/-- Settles O3: the transaction as it begins, byte by byte. -/
theorem transactionBeginFixesFirstBytes : Obligations.TransactionBeginFixesFirstBytes := by
  intro s p hcs hprst hreset
  have hbegin := State.beginTransaction_begins hcs hprst hreset
  have hother : ∀ q, q ≠ p → (s.beginTransaction p).engine q = s.engine q := fun q hq => by
    rw [hbegin, State.putEngine_engine, if_neg hq]
  refine ⟨_, rfl, s.beginTransaction_only p, hother, ?_⟩
  rw [State.InTransaction, State.miso, State.miso, hbegin, State.putEngine_engine, if_pos rfl]
  refine ⟨rfl, rfl, rfl, rfl, rfl, rfl, rfl, fun k => ?_⟩
  rw [State.miso, State.putEngine_engine, if_pos rfl]
  rfl

/-! ## A port that is held, a transaction that is empty -/

/-- R155: the end of a transaction of which byte 0 has not completed. -/
theorem State.atRelease_empty (h : s.InTransaction p) :
    s.atRelease p (·.received.isEmpty) (fun _ s => s) = s.closeTransaction p := by
  obtain ⟨t, ht, -, hr⟩ := h.exists_txn
  exact s.atRelease_eq p t _ _ ht (by rw [hr]; rfl)

/-- Settles O4: each pin event, and the release without a command, with a transaction and without one. -/
theorem heldPortAndEmptyTransactionDoNothing : Obligations.HeldPortAndEmptyTransactionDoNothing := by
  intro s p
  have hempty : exec (.transactionWithoutCommand p) s
      = .next (s.atRelease p (·.received.isEmpty) (fun _ s => s)) := rfl
  refine ⟨fun h => ?_, ⟨_, rfl, ?_, fun q hq => ?_, s.putEngine_only p _⟩, fun h => if_pos h, fun h => ?_, fun h => ?_⟩
  · obtain ⟨hself, hother⟩ := State.beginTransaction_held h
    exact ⟨_, rfl, hself, hother, s.beginTransaction_only p⟩
  · rw [State.setPrst, State.putEngine_engine, if_pos rfl]
  · rw [State.setPrst, State.putEngine_engine, if_neg hq]
  · rw [hempty, s.atRelease_none p _ _ h]
    exact ⟨_, rfl, by simp [State.setCs], fun q hq => by simp [State.setCs, hq], s.setCs_only p false⟩
  · rw [hempty, State.atRelease_empty h]
    exact ⟨_, rfl, by simp, by simp, fun q hq => by simp [hq], s.closeTransaction_only p⟩

/-! ## Commands cut short -/

theorem loadBody_short {bytes : List Byte} (h : bytes.length < 11) : loadBody p bytes s = (s, .truncated) := by
  unfold loadBody
  split
  · simp only [List.length_cons] at h
    omega
  · rfl

/-- R55, check 1: the payload is shorter than its length byte says. -/
theorem loadBody_cut {index kind dest chan gHi gLo key retry hold spare len : Byte} {payload : List Byte}
    (hl : len.toNat ≤ 64) (hp : payload.length < len.toNat) :
    loadBody p (index :: kind :: dest :: chan :: gHi :: gLo :: key :: retry :: hold :: spare :: len :: payload) s
      = (s, .truncated) := by
  simp [loadBody, hl, hp]

theorem claimBody_short {bytes : List Byte} (h : bytes.length < 2) : claimBody p bytes s = (s, .truncated) := by
  unfold claimBody
  split
  · simp only [List.length_cons] at h
    omega
  · rfl

theorem setEntryBody_short {bytes : List Byte} (h : bytes.length < 7) : setEntryBody p bytes s = (s, .truncated) := by
  unfold setEntryBody
  split
  · simp only [List.length_cons] at h
    omega
  · rfl

theorem setQueueBody_short {bytes : List Byte} (h : bytes.length < 2) : setQueueBody p bytes s = (s, .truncated) := by
  unfold setQueueBody
  split
  · simp only [List.length_cons] at h
    omega
  · rfl

theorem setPortBody_short {bytes : List Byte} (h : bytes.length < 2) : setPortBody p bytes s = (s, .truncated) := by
  unfold setPortBody
  split
  · simp only [List.length_cons] at h
    omega
  · rfl

/-- R156: each command with the bytes that it needs after byte 0, cut before the last of them. -/
theorem exec_cut (s : State) {needed : Nat} {bytes : List Byte} {i : Instr} (h : bytes.length < needed)
    (hi : (needed, i) ∈ [(1, .vote p bytes), (4, .configure p bytes), (1, .resume p bytes), (11, .load p bytes),
      (1, .request p bytes), (1, .abort p bytes), (1, .clear p bytes), (2, .claim p bytes),
      (1, .releaseChannel p bytes), (1, .halt p bytes), (1, .openChannel p bytes), (7, .setEntry p bytes),
      (1, .freeEntry p bytes), (2, .setQueue p bytes), (1, .release p bytes), (2, .setPort p bytes),
      (1, .acknowledge p bytes), (1, .resetPort p bytes), (1, .nop p bytes)]) :
    ∃ c body, exec i s = .next (s.takeCommand p c body) ∧ ∀ u, body u = (u, Result.truncated) := by
  have one (h : bytes.length < 1) (body : List Byte → State → State × Result) (hbody : ∀ u, body [] u = (u, .truncated))
      (u : State) : body bytes u = (u, .truncated) := by
    rw [List.length_eq_zero_iff.1 (Nat.lt_one_iff.1 h), hbody]
  simp only [List.mem_cons, Prod.mk.injEq, List.not_mem_nil, or_false] at hi
  rcases hi with ⟨rfl, rfl⟩ | ⟨rfl, rfl⟩ | ⟨rfl, rfl⟩ | ⟨rfl, rfl⟩ | ⟨rfl, rfl⟩ | ⟨rfl, rfl⟩ | ⟨rfl, rfl⟩ | ⟨rfl, rfl⟩
    | ⟨rfl, rfl⟩ | ⟨rfl, rfl⟩ | ⟨rfl, rfl⟩ | ⟨rfl, rfl⟩ | ⟨rfl, rfl⟩ | ⟨rfl, rfl⟩ | ⟨rfl, rfl⟩ | ⟨rfl, rfl⟩ | ⟨rfl, rfl⟩
    | ⟨rfl, rfl⟩ | ⟨rfl, rfl⟩
  · exact ⟨.vote, _, rfl, one h (voteBody p) fun _ => rfl⟩
  · exact ⟨.configure, _, rfl, fun u => configureBody_short u h⟩
  · exact ⟨.resume, _, rfl, one h resumeBody fun _ => rfl⟩
  · exact ⟨.load, _, rfl, fun u => loadBody_short h⟩
  · exact ⟨.request, _, rfl, one h (requestBody p) fun _ => rfl⟩
  · exact ⟨.abort, _, rfl, one h (abortBody p) fun _ => rfl⟩
  · exact ⟨.clear, _, rfl, one h (clearBody p) fun _ => rfl⟩
  · exact ⟨.claim, _, rfl, fun u => claimBody_short h⟩
  · exact ⟨.releaseChannel, _, rfl, one h (ownerCommand p · State.releaseChannel) fun _ => rfl⟩
  · exact ⟨.halt, _, rfl, one h (ownerCommand p · (State.setChannelState .halted)) fun _ => rfl⟩
  · exact ⟨.openChannel, _, rfl, one h (ownerCommand p · (State.setChannelState .opened)) fun _ => rfl⟩
  · exact ⟨.setEntry, _, rfl, fun u => setEntryBody_short h⟩
  · exact ⟨.freeEntry, _, rfl, one h (freeEntryBody p) fun _ => rfl⟩
  · exact ⟨.setQueue, _, rfl, fun u => setQueueBody_short h⟩
  · exact ⟨.release, _, rfl, one h (releaseBody p) fun _ => rfl⟩
  · exact ⟨.setPort, _, rfl, fun u => setPortBody_short h⟩
  · exact ⟨.acknowledge, _, rfl, one h (acknowledgeBody p) fun _ => rfl⟩
  · exact ⟨.resetPort, _, rfl, one h (resetPortBody p) fun _ => rfl⟩
  · exact ⟨.nop, _, rfl, one h nopBody fun _ => rfl⟩

/-- R157: a read command is taken at release under its own code. -/
theorem exec_read (s : State) {k : Nat} {i : Instr}
    (hi : i ∈ [.readLine p k, .readMailbox p k, .readCompletion p k, .readChannel p k, .readEntry p k, .peek p k,
      .take p k, .readQueue p k]) : ∃ cmd effect, exec i s = .next (s.takeRead p cmd k effect) := by
  simp only [List.mem_cons, List.not_mem_nil, or_false] at hi
  rcases hi with rfl | rfl | rfl | rfl | rfl | rfl | rfl | rfl
  all_goals exact ⟨_, _, rfl⟩

/-- Settles O5: too few bytes, a payload cut short, a read command without its argument. -/
theorem cutCommandsAreTruncated : Obligations.CutCommandsAreTruncated := by
  intro s p hin
  refine ⟨fun needed bytes i h hi => ?_, fun _ _ _ _ _ _ _ _ _ _ len payload hl hp => ?_, fun k i hi => ?_⟩
  · obtain ⟨c, body, hexec, hbody⟩ := exec_cut s h hi
    exact ⟨_, hexec, State.takeCommand_refused c hin (hbody _)⟩
  · exact ⟨_, rfl, State.takeCommand_refused .load hin (loadBody_cut hl hp)⟩
  · obtain ⟨cmd, effect, hexec⟩ := exec_read (p := p) s hi
    refine ⟨_, hexec, ?_⟩
    rw [s.takeRead_none p cmd k effect hin]
    exact s.report_closeTransaction_answered p _

/-! ## Command codes -/

/-- R156: a code that is the code of no command names none. -/
theorem namesCommand_eq_false {code : Byte} (h : code ∉ Command.all.map Command.code) : namesCommand code = false := by
  have hnone : commandOf code = none := List.find?_eq_none.2 fun c hc he =>
    h (List.mem_map.2 ⟨c, hc, beq_iff_eq.1 he⟩)
  rw [namesCommand, hnone]
  rfl

/-- R156: a code that names no command is answered with BAD_COMMAND. -/
theorem execBadCommand_answered {code : Byte} (bytes : List Byte) (hin : s.InTransaction p)
    (h : namesCommand code = false) :
    ∃ t, exec (.badCommand p code bytes) s = .next t ∧ s.Answered t p .badCommand [] := by
  have hexec : exec (.badCommand p code bytes) s = execBadCommand p code bytes s := rfl
  rw [hexec, execBadCommand, h]
  refine ⟨_, rfl, ?_⟩
  rw [s.takeCode_eq p code _ hin]
  exact s.report_closeTransaction_answered p _

theorem nopBody_complete {bytes : List Byte} (h : bytes ≠ []) : nopBody bytes s = (s, .ok) := by
  obtain ⟨b, rest, rfl⟩ := List.exists_cons_of_ne_nil h
  rfl

/-- Settles O6: the listed rows are those of the commands by their codes, and the listed codes are all codes. -/
theorem commandCodesNameTheCommands : Obligations.CommandCodesNameTheCommands := by
  refine ⟨fun p bytes => ⟨rfl, fun code i hi => ?_⟩, fun s p bytes hin => ⟨fun code hcode => ?_, fun hbytes => ?_⟩⟩
  · have hrows : (code, i) ∈ Command.all.map (fun c => (c.code, c.row p bytes)) := hi
    obtain ⟨c, hc, he⟩ := List.mem_map.1 hrows
    obtain ⟨rfl, rfl⟩ := Prod.mk.inj he
    exact releaseRow_named p bytes (commandOf_code c hc)
  · have hnone : namesCommand code = false := namesCommand_eq_false hcode
    exact ⟨releaseRow_unnamed p bytes hnone, execBadCommand_answered bytes hin hnone⟩
  · exact ⟨_, rfl, State.takeCommand_refused .nop hin (nopBody_complete hbytes)⟩

/-! ## Snapshots -/

/-- R157: the engine once the snapshot is held. -/
theorem State.takeSnapshot_engine (s : State) (p : Port) (t : Transaction) (cmd : ReadCommand) (arg : Byte) (q : Port) :
    (s.takeSnapshot p t cmd arg).engine q
      = if q = p then
          { s.engine p with txn := some { t with received := [cmd.code, arg],
                                                 snapshot := some (s.snapshotOf p cmd arg) } }
        else s.engine q := by
  unfold State.takeSnapshot
  split <;> simp [State.setTxnPin]

theorem State.pinsAtSnapshot_eq (s : State) (p : Port) (cmd : ReadCommand) :
    s.pinsAtSnapshot p cmd = ((cmd == .peek || cmd == .take) && !(s.queue p).records.isEmpty) := by
  cases cmd <;> rfl

/-- R146: the queue once the snapshot is held: PEEK and TAKE pin a head. -/
theorem State.takeSnapshot_queue (s : State) (p : Port) (t : Transaction) (cmd : ReadCommand) (arg : Byte) (q : Port) :
    (s.takeSnapshot p t cmd arg).queue q
      = if q = p then
          { s.queue p with txnPin := (s.queue p).txnPin
              || ((cmd == .peek || cmd == .take) && !(s.queue p).records.isEmpty) }
        else s.queue q := by
  rw [← State.pinsAtSnapshot_eq]
  unfold State.takeSnapshot
  cases hpins : s.pinsAtSnapshot p cmd
  · have hself : { s.queue p with txnPin := (s.queue p).txnPin || false } = s.queue p := by rw [Bool.or_false]
    simp only [Bool.false_eq_true, if_false, (State.putEngine_views _ _ _).1, hself]
    split
    next hq => rw [hq]
    next => rfl
  · simp [State.setTxnPin]

/-- Settles O7: the transaction, the MISO bytes and the queue after READ_SNAPSHOT. -/
theorem snapshotIsHeldAndPinned : Obligations.SnapshotIsHeldAndPinned := by
  intro s p cmd arg hin
  obtain ⟨t, ht, hnone, -⟩ := hin.exists_txn
  have hexec : exec (.readSnapshot p cmd arg) s = .next (s.takeSnapshot p t cmd arg) := by
    have e : exec (.readSnapshot p cmd arg) s = execReadSnapshot p cmd arg s := rfl
    rw [e]
    simp [execReadSnapshot, ht, hnone]
  have hengine := s.takeSnapshot_engine p t cmd arg p
  rw [if_pos rfl] at hengine
  refine ⟨_, s.snapshotOf p cmd arg, hexec, ?_, s.snapshotOf_cmd p cmd arg, ?_, fun k => ?_, ?_, ?_,
    by rw [hengine], by rw [hengine], by rw [hengine], by rw [State.takeSnapshot_queue, if_pos rfl],
    fun q hq => ⟨by rw [State.takeSnapshot_engine, if_neg hq], by rw [State.takeSnapshot_queue, if_neg hq]⟩,
    s.takeSnapshot_only p t cmd arg⟩
  · rw [State.HasSnapshot, hengine, s.snapshotOf_cmd]
    rfl
  · rw [hengine]
    cases cmd <;> rfl
  · rw [State.miso, hengine, List.getD_eq_getElem?_getD]
    rfl
  · rw [State.miso, State.miso, hengine, ht]
    rfl
  · rw [State.miso, State.miso, hengine, ht]
    rfl

/-- R157: the read commands without a side effect. -/
theorem exec_read_noEffect (s : State) {k : Nat} {i : Instr} {cmd : ReadCommand}
    (hi : (i, cmd) ∈ [(.readMailbox p k, .mailbox), (.readChannel p k, .channel), (.readEntry p k, .entry),
      (.readQueue p k, .queue)]) : exec i s = .next (s.takeRead p cmd k noEffect) := by
  simp only [List.mem_cons, Prod.mk.injEq, List.not_mem_nil, or_false] at hi
  rcases hi with ⟨rfl, rfl⟩ | ⟨rfl, rfl⟩ | ⟨rfl, rfl⟩ | ⟨rfl, rfl⟩
  all_goals rfl

/-- Settles O8: the result is that of the snapshot. -/
theorem readsWithoutSideEffectAnswer : Obligations.ReadsWithoutSideEffectAnswer := by
  intro s p k i cmd hi n hs hcmd
  subst hcmd
  exact ⟨_, _, exec_read_noEffect s hi, s.takeRead_answered p n k hs, readResult_badArgument k, readResult_empty k,
    readResult_short, readResult_whole⟩

end Sys2Proof.Machine
end

section
/-! O9, O10, O11: the attention byte and ATNn (R161, R168), the report codes, SET_PORT (R162) and ACKNOWLEDGE (R163). -/

namespace Sys2Proof.Machine

variable {s : State} {p : Port}

/-! ## The attention byte -/

/-- R168: the bits of the attention byte, and the byte read back. -/
theorem Attention.toByte_layout (a : Attention) :
    a.toByte.getLsbD 0 = a.rx ∧ a.toByte.getLsbD 1 = a.txDone ∧ a.toByte.getLsbD 2 = a.loss
      ∧ a.toByte.getLsbD 3 = a.line ∧ a.toByte.getLsbD 4 = a.error ∧ a.toByte.toNat < 32
      ∧ Attention.ofByte a.toByte = a := by
  obtain ⟨rx, txDone, loss, line, error⟩ := a
  revert rx txDone loss line error
  decide

/-- R161: ATNn, flag by flag. -/
theorem Engine.atn_iff (e : Engine) :
    e.atn = true
      ↔ e.flags.rx = true ∧ e.mask.rx = true ∨ e.flags.txDone = true ∧ e.mask.txDone = true
        ∨ e.flags.loss = true ∧ e.mask.loss = true ∨ e.flags.line = true ∧ e.mask.line = true
        ∨ e.flags.error = true ∧ e.mask.error = true := by
  simp only [Engine.atn, Bool.or_eq_true, Bool.and_eq_true, or_assoc]

/-- R161, R168: ATNn, bit by bit of the attention byte and the mask. -/
theorem Engine.atn_iff_bit (e : Engine) :
    e.atn = true ↔ ∃ k, k < 5 ∧ e.flags.toByte.getLsbD k = true ∧ e.mask.toByte.getLsbD k = true := by
  obtain ⟨f0, f1, f2, f3, f4, -⟩ := e.flags.toByte_layout
  obtain ⟨m0, m1, m2, m3, m4, -⟩ := e.mask.toByte_layout
  rw [Engine.atn_iff, ← f0, ← f1, ← f2, ← f3, ← f4, ← m0, ← m1, ← m2, ← m3, ← m4]
  constructor
  · rintro (h | h | h | h | h)
    · exact ⟨0, by decide, h⟩
    · exact ⟨1, by decide, h⟩
    · exact ⟨2, by decide, h⟩
    · exact ⟨3, by decide, h⟩
    · exact ⟨4, by decide, h⟩
  · rintro ⟨k, hk, h⟩
    match k, hk with
    | 0, _ => exact .inl h
    | 1, _ => exact .inr (.inl h)
    | 2, _ => exact .inr (.inr (.inl h))
    | 3, _ => exact .inr (.inr (.inr (.inl h)))
    | 4, _ => exact .inr (.inr (.inr (.inr h)))

/-- Settles O9: the layout both ways, ATNn by its bits, and each table of codes read off. -/
theorem attentionByteAndReportCodes : Obligations.AttentionByteAndReportCodes :=
  ⟨Attention.toByte_layout, fun _ => ⟨rfl, rfl, rfl, rfl, rfl⟩, rfl, fun s p => (s.engine p).atn_iff_bit,
    rfl, rfl, rfl, rfl, rfl, rfl, rfl, rfl, rfl, rfl, rfl, rfl, rfl, fun _ _ _ _ _ => rfl⟩

/-! ## SET_PORT -/

theorem attentionByteValid_iff (b : Byte) : attentionByteValid b = true ↔ b.toNat < 32 := decide_eq_true_iff

/-- R162: a mask with a bit above 4, or an order above 1, is refused. -/
theorem setPortBody_refused {m o : Byte} (rest : List Byte) (h : 32 ≤ m.toNat ∨ 1 < o.toNat) :
    setPortBody p (m :: o :: rest) s = (s, .badArgument) := by
  unfold setPortBody
  split
  next mask order _ heq =>
    simp only [List.cons.injEq] at heq
    obtain ⟨rfl, rfl, -⟩ := heq
    split
    next hvalid =>
      rw [TransmitOrder.ofByte_none (h.resolve_left (Nat.not_le.2 ((attentionByteValid_iff _).1 hvalid)))]
    next => rfl
  next hne => exact absurd rfl (hne m o rest)

theorem setPortBody_taken {m o : Byte} (rest : List Byte) (hm : m.toNat < 32) (ho : o.toNat ≤ 1) :
    setPortBody p (m :: o :: rest) s = (s.setPort p (Attention.ofByte m) (if o = 0 then .key else .arrival), .ok) := by
  simp [setPortBody, (attentionByteValid_iff m).2 hm, TransmitOrder.ofByte_some ho]

/-- R162: SET_PORT writes the mask of its port. -/
@[simp] theorem State.setPort_engine (s : State) (p : Port) (mask : Attention) (o : TransmitOrder) (q : Port) :
    (s.setPort p mask o).engine q = if q = p then { s.engine p with mask := mask } else s.engine q := by
  rw [State.setPort, (State.putOrder_views _ p o).2.1, State.putEngine_engine]

@[simp] theorem State.setPort_queue (s : State) (p : Port) (mask : Attention) (o : TransmitOrder) (q : Port) :
    (s.setPort p mask o).queue q = s.queue q := rfl

/-- R162: SET_PORT writes the transmit order of its port. -/
@[simp] theorem State.setPort_order (s : State) (p : Port) (mask : Attention) (o : TransmitOrder) (q : Port) :
    (s.setPort p mask o).order q = if q = p then o else s.order q := by
  rw [State.setPort, State.putOrder_order]
  rfl

theorem State.setPort_only (s : State) (p : Port) (mask : Attention) (o : TransmitOrder) :
    s.OnlyChanges (s.setPort p mask o) [.engines, .orders] :=
  ((s.putEngine_only p _).mono (by decide)).seq (State.putOrder_only _ p o) (by decide)

/-! ## Releases under OK -/

/-- R156, R158: the release of a command whose body ends in `u` with OK, after the transaction is closed. -/
theorem State.takeCommand_ok {s u : State} {p : Port} (c : Command) {body : State → State × Result}
    (h : s.InTransaction p) (hb : body (s.closeTransaction p) = (u, .ok)) : s.takeCommand p c body = u.report p .ok := by
  rw [s.takeCommand_eq p c body h, hb]

/-- What such a release changes beyond the engines and queues is what its body changes. -/
theorem State.report_ok_only {s u : State} {p : Port} {m l : List Part} (hu : (s.closeTransaction p).OnlyChanges u m)
    (hc : ∀ k ∈ [Part.engines, .queues], k ∈ l) (hm : ∀ k ∈ m, k ∈ l) : s.OnlyChanges (u.report p .ok) l :=
  (((s.closeTransaction_only p).mono hc).seq hu hm).seq (u.report_only p .ok) (by simpa using hc .engines (by simp))

/-- Settles O10: the arguments out of range, then what is written under OK. -/
theorem setPortWritesMaskAndOrder : Obligations.SetPortWritesMaskAndOrder := by
  intro s p hin m o rest
  refine ⟨fun h => ⟨_, rfl, State.takeCommand_refused .setPort hin (setPortBody_refused rest h)⟩, fun hm ho => ?_⟩
  have htaken := State.takeCommand_ok .setPort hin (setPortBody_taken (s := s.closeTransaction p) (p := p) rest hm ho)
  have honly := (s.closeTransaction p).setPort_only p (Attention.ofByte m) (if o = 0 then .key else .arrival)
  refine ⟨_, congrArg Host.Outcome.next htaken, ?_, ?_, fun q hq => ⟨?_, ?_, ?_⟩, ?_,
    State.report_ok_only honly (by decide) (by decide)⟩
  · simp
  · simp
  · simp [hq]
  · simp [hq]
  · simp [hq]
  · simp

/-! ## ACKNOWLEDGE -/

/-- R163: an argument with a bit above 4 is refused. -/
theorem acknowledgeBody_refused {b : Byte} (rest : List Byte) (h : 32 ≤ b.toNat) :
    acknowledgeBody p (b :: rest) s = (s, .badArgument) :=
  if_neg (mt (attentionByteValid_iff b).1 (Nat.not_lt.2 h))

theorem acknowledgeBody_taken {b : Byte} (rest : List Byte) (h : b.toNat < 32) :
    acknowledgeBody p (b :: rest) s = (s.onFlags p (·.acknowledge (Attention.ofByte b)), .ok) :=
  if_pos ((attentionByteValid_iff b).2 h)

/-- Settles O11: the argument missing, out of range, and the flags it names cleared under OK. -/
theorem acknowledgeClearsNamedEdgeFlags : Obligations.AcknowledgeClearsNamedEdgeFlags := by
  intro s p hin
  refine ⟨⟨_, rfl, State.takeCommand_refused .acknowledge hin rfl⟩, fun b rest => ⟨fun h => ?_, fun h => ?_⟩⟩
  · exact ⟨_, rfl, State.takeCommand_refused .acknowledge hin (acknowledgeBody_refused rest h)⟩
  · have htaken :=
      State.takeCommand_ok .acknowledge hin (acknowledgeBody_taken (s := s.closeTransaction p) (p := p) rest h)
    have honly := (s.closeTransaction p).onFlags_only p (·.acknowledge (Attention.ofByte b))
    refine ⟨_, congrArg Host.Outcome.next htaken, ?_, ?_, fun q hq => ⟨?_, ?_⟩,
      State.report_ok_only honly (by decide) (by decide)⟩
    · simp [Attention.acknowledge, Attention.ofByte]
    · simp
    · simp [hq]
    · simp [hq]

end Sys2Proof.Machine
end

section
/-! O13: device reset (R167), block by block. -/

namespace Sys2Proof.Machine

variable (s : State)

theorem State.reset_vote (p : Port) : State.reset.vote p = .none := by
  simp [State.vote, State.reset, Membership.initial]

theorem State.reset_order (p : Port) : State.reset.order p = .key := by
  simp [State.order, State.reset]

theorem State.reset_holders (i : SlotNo) : State.reset.store.holders[i] = 0 := by
  simp [State.reset]

/-- R135, R140: with no holder and no reception slot every slot is free, lowest number first. -/
theorem State.freeSlots_all {s : State} (hholders : ∀ i : SlotNo, s.store.holders[i] = 0) (hrx : s.store.rxSlot = none) :
    s.freeSlots = List.finRange 32 :=
  List.filter_eq_self.2 fun i _ => by simp only [State.slotFree, hholders i, hrx]; rfl

/-- R164, R167: the engine of a port after device reset keeps its pin levels. -/
theorem State.deviceReset_engine (p : Port) : s.deviceReset.engine p = (s.engine p).portReset :=
  Vector.getElem_map ..

/-- Settles O13: each block has the value it has in the reset state; the engines, the queue of commands and the counter
are those of `s`. -/
theorem deviceResetSetsEveryBlock : Obligations.DeviceResetSetsEveryBlock := by
  intro s
  have hmode : s.deviceReset.mode = none := State.mode_none State.reset_vote
  have hfree : s.deviceReset.freeSlots = List.finRange 32 := State.freeSlots_all State.reset_holders rfl
  exact ⟨⟨s.deviceReset, rfl, rfl, rfl, rfl, rfl, rfl, rfl, rfl, rfl, rfl, rfl, rfl, rfl, rfl, State.reset_vote, rfl,
    hmode, rfl, rfl, State.reset_mailbox, State.reset_completions, rfl, rfl, State.reset_order, rfl, rfl,
    State.reset_channel, State.reset_entry, State.reset_holders, rfl, hfree, State.reset_queue, s.deviceReset_engine,
    rfl, rfl, rfl⟩, _, rfl, rfl, s.deviceResetEnds_only⟩

end Sys2Proof.Machine
end

section
/-! O1, O2: the queue of commands (log 2) and the taking of a command whole (95_what_each_step_holds.md, log 22). That a
row leaves the queue as it was is part of its frame (`exec_only`); here it answers a next state at all. -/

namespace Sys2Proof.Machine

/-! ## The step -/

theorem step_cons {c : Instr} {rest : List Instr} {s : State} (h : s.pending = c :: rest) :
    step s = exec c { s with pending := rest } := by
  simp only [step, h]

theorem step_idle {s : State} (h : s.pending = []) : step s = .next s := by
  simp only [step, h]

/-- Settles O1: the two cases of the queue. -/
theorem stepTakesFrontCommand : Obligations.StepTakesFrontCommand :=
  ⟨fun c rest s => step_cons (s := { s with pending := c :: rest }) rfl, fun _ => step_idle⟩

/-! ## Rows that answer -/

/-- The answer is a next state: neither a fault nor a refusal. -/
abbrev AnswersNext (a : Answer) : Prop := ∃ t, a = .next t

theorem answersNext_next (t : State) : AnswersNext (.next t) := ⟨t, rfl⟩

/-- A row that takes effect under a condition and is otherwise without effect. -/
theorem answersNext_ite (c : Prop) [Decidable c] (t u : State) : AnswersNext (if c then .next t else .next u) :=
  ⟨if c then t else u, (apply_ite Host.Outcome.next c t u).symm⟩

variable (s : State)

theorem execReadSnapshot_answersNext (p : Port) (cmd : ReadCommand) (arg : Byte) :
    AnswersNext (execReadSnapshot p cmd arg s) := by
  unfold execReadSnapshot
  split
  · exact answersNext_ite _ _ _
  · exact answersNext_next s

theorem execTurnCheck_answersNext (chars : List RxChar) : AnswersNext (execTurnCheck chars s) := by
  unfold execTurnCheck
  split
  · split
    · exact answersNext_next _
    · exact answersNext_next s
  · exact answersNext_next s

theorem execReceptionEnd_answersNext (rest : List RxChar) : AnswersNext (execReceptionEnd rest s) := by
  unfold execReceptionEnd
  split
  · exact answersNext_ite _ _ _
  · exact answersNext_next s

theorem execCollision_answersNext (k : Nat) (c : RxChar) : AnswersNext (execCollision k c s) := by
  unfold execCollision
  split
  · split
    · exact answersNext_ite _ _ _
    · exact answersNext_next s
  · exact answersNext_next s

theorem execCheckWordReadBack_answersNext : AnswersNext (execCheckWordReadBack s) := by
  unfold execCheckWordReadBack
  split
  · split
    · exact answersNext_next _
    · exact answersNext_next _
  · exact answersNext_next s

theorem execTransmissionEnd_answersNext (reply : Option RxChar) : AnswersNext (execTransmissionEnd reply s) := by
  unfold execTransmissionEnd
  split
  · exact answersNext_next _
  · exact answersNext_next s

theorem execReplyByteStart_answersNext : AnswersNext (execReplyByteStart s) := by
  unfold execReplyByteStart
  split
  · exact answersNext_next _
  · exact answersNext_next s

theorem execLineTimeEnd_answersNext : AnswersNext (execLineTimeEnd s) := by
  unfold execLineTimeEnd
  split
  · exact answersNext_ite _ _ _
  · exact answersNext_next s

/-- Log 22: no row faults or is refused. -/
theorem exec_answersNext (c : Instr) : AnswersNext (exec c s) := by
  cases c with
  | readSnapshot p cmd arg => exact execReadSnapshot_answersNext s p cmd arg
  | turnCheck chars => exact execTurnCheck_answersNext s chars
  | receptionEnd rest => exact execReceptionEnd_answersNext s rest
  | collision k c => exact execCollision_answersNext s k c
  | checkWordReadBack => exact execCheckWordReadBack_answersNext s
  | transmissionEnd reply => exact execTransmissionEnd_answersNext s reply
  | replyByteStart => exact execReplyByteStart_answersNext s
  | lineTimeEnd => exact execLineTimeEnd_answersNext s
  | badCommand | portReset | turnBegins | activityBegins | replyByteEnd | syncIdleCount | syncEntryIdleSeen =>
    exact answersNext_ite _ _ _
  | deviceReset | deviceResetEnds | prstRelease | transactionBegin | transactionWithoutCommand | vote | configure
  | readLine | resume | load | request | abort | clear | readMailbox | readCompletion | claim | releaseChannel | halt
  | openChannel | readChannel | setEntry | freeEntry | readEntry | setQueue | peek | take | release | readQueue
  | setPort | acknowledge | resetPort | nop =>
    exact answersNext_next _

/-- Settles O2: every row answers, and its frame holds the queue of waiting commands. -/
theorem everyCommandIsTakenWhole : Obligations.EveryCommandIsTakenWhole := by
  intro c s
  obtain ⟨t, ht⟩ := exec_answersNext s c
  exact ⟨t, ht, (exec_only s c t ht).1⟩

end Sys2Proof.Machine
end
